-- ==== Sys2Proof/Word.lean ====
section
/-! DEFINITION. The plain word types of the Igura (R5, R6, R54) and the sparse map that holds every
register file, queue and table of the state as plain data. -/
namespace Sys2Proof

/-- One byte of memory (R6). -/
abbrev Byte := BitVec 8
/-- A lane of a vector (R209). -/
abbrev W32 := BitVec 32
/-- A scalar register, an address or a command word (R172, R164). -/
abbrev W64 := BitVec 64

/-- A map from numbers to values: keys strictly rising, an absent key standing for the map's own default. -/
abbrev SMap (α : Type) := List (Nat × α)

/-- A vector: 64 lanes, lane 0 first (R209); a lane past the list's end reads zero. -/
abbrev Lanes := List W32

end Sys2Proof
end

