-- ==== Sys2Proof/Config.lean ====
section
/-! DEFINITION. What one implementation fixes, and the values the manual leaves free (log entries 4, 14, 17, 23, 25, 26 and 49).
A free value is a constant without a body: no proof can know it. -/
namespace Sys2Proof.Config

/-- Whether a scalar read of device memory that finds its line in the cluster cache is served from a line that
another cluster has since written (R104 allows either). Log entry 4. -/
opaque staleHit : Nat → Bool

/-- What the image slots of module flash and the fuse PKH hold when the machine is first powered (R384): by slot, the first 16 bytes, the public key, and the
payload with the signature behind it; byte strings are numbers, first byte lowest. Log entry 14. -/
opaque flashHead : Nat → BitVec 128
opaque flashKey : Nat → BitVec 512
opaque flashBody : Nat → Nat
opaque fusedKey : BitVec 256

/-- What a sensor measures when it is read (R387), by pulse, die and sensor. Log entry 49. -/
opaque sensorValue : Nat → Nat → Nat → BitVec 32

/-- Which of several shards with the highest count a rebalancing shard takes (R151 does not say). Log entry 17. -/
opaque tieBreak : Nat → Nat

/-- Cycles a stream transfer takes to copy, by its sequence number (no rule states them). Log entry 23. -/
opaque xferCycles : Nat → Nat

/-- What the far end of a Tsuiq link decides: whether it refuses an address, and the bytes that had landed when the link was
lost (R381). Log entry 25. -/
opaque remoteRefuses : Nat → Bool
opaque landedBytes : Nat → Nat
/-- Pulses that a port's copy takes, by the pulse and port of its start (no rule states them). Log entry 25. -/
opaque portCycles : Nat → Nat

/-- Outcomes of the calibrations of boot stages 2 and 3, by pulse (R383): success, else the die and the layer. Log entry 26. -/
opaque calibrates : Nat → Bool
opaque failedDie : Nat → Nat
opaque failedLayer : Nat → Nat
/-- Whether a Tsuiq port calibrates in stage 3 (R383). Log entry 26. -/
opaque portCalibrates : Nat → Bool

/-- The nanosecond-scale pulses of one second at the nominal clock (R4). -/
def pulsesPerSecond : Nat := 1750000000

end Sys2Proof.Config
end

