-- ==== Sys2Proof/Syntax.lean ====
section
/-! DEFINITION. The abstract syntax of the Igura: one constructor for each row of the opcode table. Scalar words
carry the fields of R156 to R161 that the instruction reads; V commands carry format V (R167), the commands of the
other engines format E (R168) and the payloads of their extension words (R165); the steps of units that have no
word carry the numbers of the units they concern. -/
namespace Sys2Proof

/-- The fields of a V command beside its opcode (R164, R167). -/
structure VWord where
  wait : BitVec 8
  signal : BitVec 8
  vd : BitVec 7
  va : BitVec 7
  vb : BitVec 7
  vc : BitVec 7
  mask : BitVec 3
  stage : BitVec 3
  round : BitVec 3
  mod : BitVec 3
  deriving DecidableEq, Repr

/-- The fields of a format E command beside its opcode (R164, R168). -/
structure EWord where
  wait : BitVec 8
  signal : BitVec 8
  args : BitVec 30
  cls : BitVec 4
  round : BitVec 3
  mod : BitVec 3
  deriving DecidableEq, Repr

/-- Every row of the opcode table. The steps of units come first and the V commands last. -/
inductive Instr where
  /-- PARK_WAKE (R182): A write to the monitored sector or a freeze resumes a parked strand. -/
  | parkWake (core : Nat)
  /-- PARK_TIMEOUT (R182): After 65,536 cy a parked strand re-executes its loop. -/
  | parkTimeout (core : Nat)
  /-- CDF_BANK_SWITCH (R246): The newly loaded CDF bank becomes active at its landing. -/
  | cdfBankSwitch (core slot : Nat)
  /-- RESULT_LANDING (R24): An exposed-latency result lands L cy after issue, completing its entry and pushing its tokens. -/
  | resultLanding (core : Nat)
  /-- TOKEN_PUSH (R18): A held token push succeeds once the target queue has room. -/
  | tokenPush (core frm dest : Nat)
  /-- INBOX_PUSH (R23): A held inbox push succeeds once ipop frees a slot. -/
  | inboxPush (core : Nat)
  /-- NETWORK_COMPLETION_TOKEN (R20): The barrier network pushes a completion token to each member after a phase completes. -/
  | networkCompletionToken (cl : Nat)
  /-- MESSAGE_ARRIVAL (R30): A tmsg copy arrives in a target's message queue. -/
  | messageArrival (id : Nat)
  /-- XT_BANK_FULL (R268): The last table entry lands and the bank becomes FULL. -/
  | xtBankFull (core bank : Nat)
  /-- DQ_ELEMENT_PUSH (R262): An L entry pushes one element into its data queue once data and room are ready. -/
  | dqElementPush (core eng : Nat)
  /-- SQ_ELEMENT_POP (R262): W pops and writes one store-queue element when it is present. -/
  | sqElementPop (core : Nat)
  /-- LEASE_GRANT (R284): The cluster's lease arbiter grants a waiting request. -/
  | leaseGrant (cl : Nat)
  /-- MMUL_BLOCK_WRITE (R288): A formed block sum is written to a group of tile rows. -/
  | mmulBlockWrite (core : Nat)
  /-- MMUL_DRAIN_START (R288): The multiply reaches its drain start, completes and signals. -/
  | mmulDrainStart (core : Nat)
  /-- MDRAIN_COMPLETE (R292): All stores and the atomic maximum performed, the drain completes. -/
  | mdrainComplete (core : Nat)
  /-- OPERAND_FETCH_ARRIVAL (R290): A late device-memory operand fetch arrives and releases the held array. -/
  | operandFetchArrival (core : Nat)
  /-- COPY_CHANNEL_START (R272): A channel starts the next entry of its queue. -/
  | copyChannelStart (cl ch : Nat)
  /-- COPY_BYTES_LAND (R79): A cycle's landed bytes advance the watermark and update the bound barrier. -/
  | copyBytesLand (cl ch : Nat)
  /-- COPY_COMPLETE (R89): A copy entry completes, clears ACTIVE and signals the dispatching core. -/
  | copyComplete (cl ch : Nat)
  /-- ACC_ROW_WRITE (R278): An accumulator copy writes one tile row, trapping on a bank conflict. -/
  | accRowWrite (cl ch : Nat)
  /-- FRONT_END_MULTICAST (R126): The Prism front end multicasts one instruction to every bound core. -/
  | frontEndMulticast (cl : Nat)
  /-- VOTE_RESOLVE (R130): A voting point resolves and minority cores detach. -/
  | voteResolve (cl : Nat)
  /-- JOIN_TIMEOUT (R133): A bound join's timeout expires and the group resolves without missing cores. -/
  | joinTimeout (cl : Nat)
  /-- FRONT_END_RESTART (R135): An idle front end with every roster core parked restarts at the most-held address. -/
  | frontEndRestart (cl : Nat)
  /-- FETCH_LINE_ARRIVAL (R131): A requested instruction line returns to the front end or a detached core. -/
  | fetchLineArrival (cl party : Nat)
  /-- POOL_PUT_ARRIVAL (R144): A put reaches its shard and is accepted or refused. -/
  | poolPutArrival (id : Nat)
  /-- INSERT_COUNTED (R146): A remote shard counts an announced insert. -/
  | insertCounted (id : Nat)
  /-- POOL_SNAPSHOT (R145): Every 256 cy each shard snapshots and publishes its best entries. -/
  | poolSnapshot (pool : Nat)
  /-- SNAPSHOT_ARRIVAL (R145): A remote snapshot arrives and replaces the previous one. -/
  | snapshotArrival (id : Nat)
  /-- TAKE_DECIDE (R147): A shard decides a take: serve, forward or keep. -/
  | takeDecide (pool shard : Nat)
  /-- TAKE_FORWARD_ARRIVAL (R149): A forwarded take arrives in its target's forwarding queue. -/
  | takeForwardArrival (id : Nat)
  /-- TAKE_PROMOTION (R149): A forwarded take waits longer than LIMIT and is promoted. -/
  | takePromotion (pool shard : Nat)
  /-- FORCED_ROUND_SERVE (R149): The fetch reaches the shard holding the pool's best entry, serves it and ends the round. -/
  | forcedRoundServe (id : Nat)
  /-- MIGRATION_TRANSFER (R151): A migrated entry moves from its old shard to its new one. -/
  | migrationTransfer (id : Nat)
  /-- POOL_RESULT_RETURN (R155): A pool operation's result reaches S. -/
  | poolResultReturn (id : Nat)
  /-- TRANSLATION_WALK_DONE (R357): A page-table walk ends in a leaf, a suspension or a trap. -/
  | translationWalkDone (id : Nat)
  /-- FAULT_RECORD_WRITE (R362): A waiting trap or suspension record is written when the fault queue has space. -/
  | faultRecordWrite (die : Nat)
  /-- SAVE_WRITE (R327): In-flight work finished, SAVE writes the area and the core leaves the roster. -/
  | saveWrite (core : Nat)
  /-- PKT_END (R338): Ends the stream with status DONE. -/
  | pktEnd (die : Nat) (w : BitVec 64)
  /-- PKT_LAUNCH (R341): Enters a kernel entry on the scoreboards of its rectangle. -/
  | pktLaunch (die : Nat) (w a : BitVec 64)
  /-- PKT_LAUNCHI (R342): Launches with extents read from a size record. -/
  | pktLaunchi (die : Nat) (w a b : BitVec 64)
  /-- PKT_XFER (R344): Enters a stream transfer into cluster memory. -/
  | pktXfer (die : Nat) (w a b c : BitVec 64)
  /-- PKT_LOOP (R338): Opens a loop with an immediate count. -/
  | pktLoop (die : Nat) (w : BitVec 64)
  /-- PKT_LOOPI (R338): Opens a loop with a count read from memory. -/
  | pktLoopi (die : Nat) (w a : BitVec 64)
  /-- PKT_ENDLOOP (R338): Closes the innermost loop. -/
  | pktEndloop (die : Nat) (w : BitVec 64)
  /-- PKT_SKIPIF (R338): Skips N words when a comparison holds. -/
  | pktSkipif (die : Nat) (w a b : BitVec 64)
  /-- PKT_WAIT (R338): Waits for a tagged entry to retire or a transfer to become resident. -/
  | pktWait (die : Nat) (w : BitVec 64)
  /-- ENTRY_ISSUE (R346): A stream controller issues a READY, placeable kernel entry. -/
  | entryIssue (seq : Nat)
  /-- STRAND_START (R341): A strand begins at its first instruction with its launch state. -/
  | strandStart (core : Nat)
  /-- PRIORITY_AGEING (R347): After each 65,536 cy of waiting an entry's effective level falls by one. -/
  | priorityAgeing (seq : Nat)
  /-- XFER_COPY_START (R344): A transfer starts copying once earlier declaring kernels retire. -/
  | xferCopyStart (seq : Nat)
  /-- XFER_RESIDENT (R344): Every byte of a transfer has landed in every cluster. -/
  | xferResident (seq : Nat)
  /-- KERNEL_RETIRE (R345): A kernel entry retires once all strands exit and their accesses perform. -/
  | kernelRetire (seq : Nat)
  /-- TAG_STATE_ARRIVAL (R349): A tag-table state change reaches a die. -/
  | tagStateArrival (id : Nat)
  /-- THROTTLE_WINDOW (R350): A new 64-pulse window starts with the current swallow count. -/
  | throttleWindow (cl : Nat)
  /-- WATCHDOG_INTERVAL_END (R352): At the end of an interval NOPROG is cleared, kept or incremented. -/
  | watchdogIntervalEnd (core : Nat)
  /-- DELIVERY_TURN (R376): The delivery unit moves one committed token from a slot to the host ring. -/
  | deliveryTurn (die : Nat)
  /-- REPETITION_TRAP (R378): A pending TRAPREQ makes the owner's S trap with SWCODE REPCODE. -/
  | repetitionTrap (core : Nat)
  /-- TSUIQ_COPY_COMPLETE (R381): The copy ends and its completion record is written last. -/
  | tsuiqCopyComplete (port : Nat)
  /-- TAKE_ARRIVAL (R149): A ptake reaches its own shard 12 cy after issue and joins the shard's local queue. -/
  | takeArrival (id : Nat)
  /-- PUT_STOP_ARRIVAL (R149): The stop of puts of a forced round reaches a shard, which then stops accepting puts and waits for its arrival buffer to empty. -/
  | putStopArrival (pool shard : Nat)
  /-- ERROR_FREEZE_END (R366): The 40 swallowed pulses of a correctable-error freeze run out and the domain runs again. -/
  | errorFreezeEnd (cl : Nat)
  /-- ADD (R176): Writes the sum of two scalar registers to rd. -/
  | add (g : BitVec 3) (d a b : BitVec 5)
  /-- SUB (R176): Writes the difference of two scalar registers to rd. -/
  | sub (g : BitVec 3) (d a b : BitVec 5)
  /-- AND (R176): Writes the bitwise AND of two registers to rd. -/
  | and (g : BitVec 3) (d a b : BitVec 5)
  /-- OR (R176): Writes the bitwise OR of two registers to rd. -/
  | or (g : BitVec 3) (d a b : BitVec 5)
  /-- XOR (R176): Writes the bitwise XOR of two registers to rd. -/
  | xor (g : BitVec 3) (d a b : BitVec 5)
  /-- ANDN (R176): Writes a AND NOT b to rd. -/
  | andn (g : BitVec 3) (d a b : BitVec 5)
  /-- SLL (R176): Shifts a left by b[5:0] into rd. -/
  | sll (g : BitVec 3) (d a b : BitVec 5)
  /-- SRL (R176): Shifts a logically right by b[5:0] into rd. -/
  | srl (g : BitVec 3) (d a b : BitVec 5)
  /-- SRA (R176): Shifts a arithmetically right by b[5:0] into rd. -/
  | sra (g : BitVec 3) (d a b : BitVec 5)
  /-- MUL (R176): Writes the low 64 bits of the product to rd. -/
  | mul (g : BitVec 3) (d a b : BitVec 5)
  /-- MULH (R176): Writes the high 64 bits of the signed product to rd. -/
  | mulh (g : BitVec 3) (d a b : BitVec 5)
  /-- MULHN (R176): Writes the high 64 bits of the unsigned product to rd. -/
  | mulhn (g : BitVec 3) (d a b : BitVec 5)
  /-- DIV (R176): Writes the signed quotient, with defined results for zero and overflow. -/
  | div (g : BitVec 3) (d a b : BitVec 5)
  /-- DIVN (R176): Writes the unsigned quotient, all ones for division by zero. -/
  | divn (g : BitVec 3) (d a b : BitVec 5)
  /-- REM (R176): Writes the signed remainder. -/
  | rem (g : BitVec 3) (d a b : BitVec 5)
  /-- REMN (R176): Writes the unsigned remainder. -/
  | remn (g : BitVec 3) (d a b : BitVec 5)
  /-- MIN (R176): Writes the signed minimum. -/
  | min (g : BitVec 3) (d a b : BitVec 5)
  /-- MAX (R176): Writes the signed maximum. -/
  | max (g : BitVec 3) (d a b : BitVec 5)
  /-- MINN (R176): Writes the unsigned minimum. -/
  | minn (g : BitVec 3) (d a b : BitVec 5)
  /-- MAXN (R176): Writes the unsigned maximum. -/
  | maxn (g : BitVec 3) (d a b : BitVec 5)
  /-- CLZ (R176): Counts leading zero bits of a. -/
  | clz (g : BitVec 3) (d a : BitVec 5)
  /-- CTZ (R176): Counts trailing zero bits of a. -/
  | ctz (g : BitVec 3) (d a : BitVec 5)
  /-- POPC (R176): Counts set bits of a. -/
  | popc (g : BitVec 3) (d a : BitVec 5)
  /-- CLMUL (R176): Writes the low 64 bits of the carry-less product. -/
  | clmul (g : BitVec 3) (d a b : BitVec 5)
  /-- CLMULH (R176): Writes the high 64 bits of the carry-less product. -/
  | clmulh (g : BitVec 3) (d a b : BitVec 5)
  /-- SH1ADD (R176): Writes (a << 1) + b. -/
  | sh1add (g : BitVec 3) (d a b : BitVec 5)
  /-- SH2ADD (R176): Writes (a << 2) + b. -/
  | sh2add (g : BitVec 3) (d a b : BitVec 5)
  /-- SH3ADD (R176): Writes (a << 3) + b. -/
  | sh3add (g : BitVec 3) (d a b : BitVec 5)
  /-- SH4ADD (R176): Writes (a << 4) + b. -/
  | sh4add (g : BitVec 3) (d a b : BitVec 5)
  /-- ADDI (R176): Adds a sign-extended immediate. -/
  | addi (g : BitVec 3) (d a : BitVec 5) (i : BitVec 12)
  /-- MULI (R176): Multiplies by a sign-extended immediate. -/
  | muli (g : BitVec 3) (d a : BitVec 5) (i : BitVec 12)
  /-- ANDI (R176): ANDs with a zero-extended immediate. -/
  | andi (g : BitVec 3) (d a : BitVec 5) (i : BitVec 12)
  /-- ORI (R176): ORs with a zero-extended immediate. -/
  | ori (g : BitVec 3) (d a : BitVec 5) (i : BitVec 12)
  /-- XORI (R176): XORs with a zero-extended immediate. -/
  | xori (g : BitVec 3) (d a : BitVec 5) (i : BitVec 12)
  /-- SLLI (R176): Shifts left by an immediate amount. -/
  | slli (g : BitVec 3) (d a : BitVec 5) (i : BitVec 6)
  /-- SRLI (R176): Shifts logically right by an immediate amount. -/
  | srli (g : BitVec 3) (d a : BitVec 5) (i : BitVec 6)
  /-- SRAI (R176): Shifts arithmetically right by an immediate amount. -/
  | srai (g : BitVec 3) (d a : BitVec 5) (i : BitVec 6)
  /-- LI (R157): Loads a sign-extended 17-bit immediate. -/
  | li (g : BitVec 3) (d : BitVec 5) (i : BitVec 17)
  /-- LSI (R157): Shifts rd left by 17 and ORs in a 17-bit immediate. -/
  | lsi (g : BitVec 3) (d : BitVec 5) (i : BitVec 17)
  /-- CMP_EQ (R177): Sets a predicate when two registers are equal. -/
  | cmpEq (g p : BitVec 3) (a b : BitVec 5)
  /-- CMP_NE (R177): Sets a predicate when two registers differ. -/
  | cmpNe (g p : BitVec 3) (a b : BitVec 5)
  /-- CMP_LT (R177): Sets a predicate on signed less-than. -/
  | cmpLt (g p : BitVec 3) (a b : BitVec 5)
  /-- CMP_GE (R177): Sets a predicate on signed greater-or-equal. -/
  | cmpGe (g p : BitVec 3) (a b : BitVec 5)
  /-- CMP_LTN (R177): Sets a predicate on unsigned less-than. -/
  | cmpLtn (g p : BitVec 3) (a b : BitVec 5)
  /-- CMP_GEN (R177): Sets a predicate on unsigned greater-or-equal. -/
  | cmpGen (g p : BitVec 3) (a b : BitVec 5)
  /-- CMPI_EQ (R177): Compares with an immediate for equality. -/
  | cmpiEq (g p : BitVec 3) (a : BitVec 5) (i : BitVec 12)
  /-- CMPI_NE (R177): Compares with an immediate for inequality. -/
  | cmpiNe (g p : BitVec 3) (a : BitVec 5) (i : BitVec 12)
  /-- CMPI_LT (R177): Compares with an immediate, signed less-than. -/
  | cmpiLt (g p : BitVec 3) (a : BitVec 5) (i : BitVec 12)
  /-- CMPI_GE (R177): Compares with an immediate, signed greater-or-equal. -/
  | cmpiGe (g p : BitVec 3) (a : BitVec 5) (i : BitVec 12)
  /-- CMPI_LTN (R177): Compares with a sign-extended immediate, unsigned less-than. -/
  | cmpiLtn (g p : BitVec 3) (a : BitVec 5) (i : BitVec 12)
  /-- CMPI_GEN (R177): Compares with a sign-extended immediate, unsigned greater-or-equal. -/
  | cmpiGen (g p : BitVec 3) (a : BitVec 5) (i : BitVec 12)
  /-- PAND (R178): ANDs two predicates. -/
  | pand (g p q r : BitVec 3)
  /-- POR (R178): ORs two predicates. -/
  | por (g p q r : BitVec 3)
  /-- PXOR (R178): XORs two predicates. -/
  | pxor (g p q r : BitVec 3)
  /-- PANDN (R178): Writes pa and not pb. -/
  | pandn (g p q r : BitVec 3)
  /-- PNOT (R178): Inverts a predicate. -/
  | pnot (g p q : BitVec 3)
  /-- PSET (R178): Sets a predicate when a scalar register is non-zero. -/
  | pset (g p : BitVec 3) (a : BitVec 5)
  /-- PGET (R178): Writes 1 or 0 from a predicate into a scalar register. -/
  | pget (g : BitVec 3) (d : BitVec 5) (q : BitVec 3)
  /-- SEL (R178): Selects one of two registers by a predicate. -/
  | sel (g : BitVec 3) (d a b : BitVec 5) (p : BitVec 3)
  /-- BR (R179): Branches PC-relative, a voting point when guarded. -/
  | br (g : BitVec 3) (o : BitVec 22)
  /-- CALL (R179): Calls PC-relative, pushing the return address. -/
  | call (g : BitVec 3) (o : BitVec 22)
  /-- JR (R179): Jumps to the address in a register. -/
  | jr (g : BitVec 3) (a : BitVec 5)
  /-- CALLR (R179): Calls the address in a register, pushing the return address. -/
  | callr (g : BitVec 3) (a : BitVec 5)
  /-- RET (R180): Pops the return-address store, refilling from the spill area when empty. -/
  | ret (g : BitVec 3)
  /-- DETACH (R132): Leaves the Prism group at the vote and continues privately. -/
  | detach (g : BitVec 3)
  /-- JOIN (R133): Waits for missing cores or parks, then rebinds the group and writes a predicate. -/
  | join (g p : BitVec 3) (t : BitVec 13)
  /-- LD_I8 (R183): Loads a sign-extended byte. -/
  | ldI8 (g : BitVec 3) (d a : BitVec 5) (c : BitVec 4) (o : BitVec 8)
  /-- LD_N8 (R183): Loads a zero-extended byte. -/
  | ldN8 (g : BitVec 3) (d a : BitVec 5) (c : BitVec 4) (o : BitVec 8)
  /-- LD_I16 (R183): Loads a sign-extended half-word. -/
  | ldI16 (g : BitVec 3) (d a : BitVec 5) (c : BitVec 4) (o : BitVec 8)
  /-- LD_N16 (R183): Loads a zero-extended half-word. -/
  | ldN16 (g : BitVec 3) (d a : BitVec 5) (c : BitVec 4) (o : BitVec 8)
  /-- LD_I32 (R183): Loads a sign-extended word. -/
  | ldI32 (g : BitVec 3) (d a : BitVec 5) (c : BitVec 4) (o : BitVec 8)
  /-- LD_N32 (R183): Loads a zero-extended word. -/
  | ldN32 (g : BitVec 3) (d a : BitVec 5) (c : BitVec 4) (o : BitVec 8)
  /-- LD_N64 (R183): Loads a double word. -/
  | ldN64 (g : BitVec 3) (d a : BitVec 5) (c : BitVec 4) (o : BitVec 8)
  /-- LD_I8_W (R183): Waits for the granule's full bit, then loads a sign-extended byte. -/
  | ldI8W (g : BitVec 3) (d a : BitVec 5) (c : BitVec 4) (o : BitVec 8)
  /-- LD_N8_W (R183): Waits for the full bit, then loads a zero-extended byte. -/
  | ldN8W (g : BitVec 3) (d a : BitVec 5) (c : BitVec 4) (o : BitVec 8)
  /-- LD_I16_W (R183): Waits for the full bit, then loads a sign-extended half-word. -/
  | ldI16W (g : BitVec 3) (d a : BitVec 5) (c : BitVec 4) (o : BitVec 8)
  /-- LD_N16_W (R183): Waits for the full bit, then loads a zero-extended half-word. -/
  | ldN16W (g : BitVec 3) (d a : BitVec 5) (c : BitVec 4) (o : BitVec 8)
  /-- LD_I32_W (R183): Waits for the full bit, then loads a sign-extended word. -/
  | ldI32W (g : BitVec 3) (d a : BitVec 5) (c : BitVec 4) (o : BitVec 8)
  /-- LD_N32_W (R183): Waits for the full bit, then loads a zero-extended word. -/
  | ldN32W (g : BitVec 3) (d a : BitVec 5) (c : BitVec 4) (o : BitVec 8)
  /-- LD_N64_W (R183): Waits for the full bit, then loads a double word. -/
  | ldN64W (g : BitVec 3) (d a : BitVec 5) (c : BitVec 4) (o : BitVec 8)
  /-- LD_I8_WC (R183): Waits for the full bit, loads a sign-extended byte and clears the bit. -/
  | ldI8Wc (g : BitVec 3) (d a : BitVec 5) (c : BitVec 4) (o : BitVec 8)
  /-- LD_N8_WC (R183): Waits, loads a zero-extended byte and clears the bit. -/
  | ldN8Wc (g : BitVec 3) (d a : BitVec 5) (c : BitVec 4) (o : BitVec 8)
  /-- LD_I16_WC (R183): Waits, loads a sign-extended half-word and clears the bit. -/
  | ldI16Wc (g : BitVec 3) (d a : BitVec 5) (c : BitVec 4) (o : BitVec 8)
  /-- LD_N16_WC (R183): Waits, loads a zero-extended half-word and clears the bit. -/
  | ldN16Wc (g : BitVec 3) (d a : BitVec 5) (c : BitVec 4) (o : BitVec 8)
  /-- LD_I32_WC (R183): Waits, loads a sign-extended word and clears the bit. -/
  | ldI32Wc (g : BitVec 3) (d a : BitVec 5) (c : BitVec 4) (o : BitVec 8)
  /-- LD_N32_WC (R183): Waits, loads a zero-extended word and clears the bit. -/
  | ldN32Wc (g : BitVec 3) (d a : BitVec 5) (c : BitVec 4) (o : BitVec 8)
  /-- LD_N64_WC (R183): Waits, loads a double word and clears the bit. -/
  | ldN64Wc (g : BitVec 3) (d a : BitVec 5) (c : BitVec 4) (o : BitVec 8)
  /-- ST_N8 (R183): Stores the low byte of rd. -/
  | stN8 (g : BitVec 3) (d a : BitVec 5) (c : BitVec 4) (o : BitVec 8)
  /-- ST_N16 (R183): Stores the low half-word of rd. -/
  | stN16 (g : BitVec 3) (d a : BitVec 5) (c : BitVec 4) (o : BitVec 8)
  /-- ST_N32 (R183): Stores the low word of rd. -/
  | stN32 (g : BitVec 3) (d a : BitVec 5) (c : BitVec 4) (o : BitVec 8)
  /-- ST_N64 (R183): Stores rd as a double word. -/
  | stN64 (g : BitVec 3) (d a : BitVec 5) (c : BitVec 4) (o : BitVec 8)
  /-- ST_N8_SET (R183): Stores a byte, then sets the granule's full bit. -/
  | stN8Set (g : BitVec 3) (d a : BitVec 5) (c : BitVec 4) (o : BitVec 8)
  /-- ST_N16_SET (R183): Stores a half-word, then sets the full bit. -/
  | stN16Set (g : BitVec 3) (d a : BitVec 5) (c : BitVec 4) (o : BitVec 8)
  /-- ST_N32_SET (R183): Stores a word, then sets the full bit. -/
  | stN32Set (g : BitVec 3) (d a : BitVec 5) (c : BitVec 4) (o : BitVec 8)
  /-- ST_N64_SET (R183): Stores a double word, then sets the full bit. -/
  | stN64Set (g : BitVec 3) (d a : BitVec 5) (c : BitVec 4) (o : BitVec 8)
  /-- ST_N8_CLR (R183): Stores a byte, then clears the full bit. -/
  | stN8Clr (g : BitVec 3) (d a : BitVec 5) (c : BitVec 4) (o : BitVec 8)
  /-- ST_N16_CLR (R183): Stores a half-word, then clears the full bit. -/
  | stN16Clr (g : BitVec 3) (d a : BitVec 5) (c : BitVec 4) (o : BitVec 8)
  /-- ST_N32_CLR (R183): Stores a word, then clears the full bit. -/
  | stN32Clr (g : BitVec 3) (d a : BitVec 5) (c : BitVec 4) (o : BitVec 8)
  /-- ST_N64_CLR (R183): Stores a double word, then clears the full bit. -/
  | stN64Clr (g : BitVec 3) (d a : BitVec 5) (c : BitVec 4) (o : BitVec 8)
  /-- ALD_N32 (R184): Single-copy atomic 32-bit load, zero-extended. -/
  | aldN32 (g : BitVec 3) (d a : BitVec 5) (c : BitVec 4) (o : BitVec 8)
  /-- ALD_N64 (R184): Single-copy atomic 64-bit load. -/
  | aldN64 (g : BitVec 3) (d a : BitVec 5) (c : BitVec 4) (o : BitVec 8)
  /-- AST_N32 (R184): Single-copy atomic 32-bit store. -/
  | astN32 (g : BitVec 3) (d a : BitVec 5) (c : BitVec 4) (o : BitVec 8)
  /-- AST_N64 (R184): Single-copy atomic 64-bit store. -/
  | astN64 (g : BitVec 3) (d a : BitVec 5) (c : BitVec 4) (o : BitVec 8)
  /-- AADD_N32 (R185): Atomically adds to a 32-bit word and returns the old value. -/
  | aaddN32 (g : BitVec 3) (d a b : BitVec 5) (c : BitVec 4)
  /-- ASWP_N32 (R185): Atomically swaps a 32-bit word. -/
  | aswpN32 (g : BitVec 3) (d a b : BitVec 5) (c : BitVec 4)
  /-- AMAX_I32 (R185): Atomic signed 32-bit maximum. -/
  | amaxI32 (g : BitVec 3) (d a b : BitVec 5) (c : BitVec 4)
  /-- AMAX_N32 (R185): Atomic unsigned 32-bit maximum. -/
  | amaxN32 (g : BitVec 3) (d a b : BitVec 5) (c : BitVec 4)
  /-- AMIN_I32 (R185): Atomic signed 32-bit minimum. -/
  | aminI32 (g : BitVec 3) (d a b : BitVec 5) (c : BitVec 4)
  /-- AMIN_N32 (R185): Atomic unsigned 32-bit minimum. -/
  | aminN32 (g : BitVec 3) (d a b : BitVec 5) (c : BitVec 4)
  /-- AOR_N32 (R185): Atomic 32-bit OR. -/
  | aorN32 (g : BitVec 3) (d a b : BitVec 5) (c : BitVec 4)
  /-- ACAS_N32 (R185): Atomic 32-bit compare-and-swap against rd. -/
  | acasN32 (g : BitVec 3) (d a b : BitVec 5) (c : BitVec 4)
  /-- AADD_N64 (R185): Atomically adds to a 64-bit word. -/
  | aaddN64 (g : BitVec 3) (d a b : BitVec 5) (c : BitVec 4)
  /-- ASWP_N64 (R185): Atomically swaps a 64-bit word. -/
  | aswpN64 (g : BitVec 3) (d a b : BitVec 5) (c : BitVec 4)
  /-- AMAX_I64 (R185): Atomic signed 64-bit maximum. -/
  | amaxI64 (g : BitVec 3) (d a b : BitVec 5) (c : BitVec 4)
  /-- AMAX_N64 (R185): Atomic unsigned 64-bit maximum. -/
  | amaxN64 (g : BitVec 3) (d a b : BitVec 5) (c : BitVec 4)
  /-- AMIN_I64 (R185): Atomic signed 64-bit minimum. -/
  | aminI64 (g : BitVec 3) (d a b : BitVec 5) (c : BitVec 4)
  /-- AMIN_N64 (R185): Atomic unsigned 64-bit minimum. -/
  | aminN64 (g : BitVec 3) (d a b : BitVec 5) (c : BitVec 4)
  /-- AOR_N64 (R185): Atomic 64-bit OR. -/
  | aorN64 (g : BitVec 3) (d a b : BitVec 5) (c : BitVec 4)
  /-- ACAS_N64 (R185): Atomic 64-bit compare-and-swap against rd. -/
  | acasN64 (g : BitVec 3) (d a b : BitVec 5) (c : BitVec 4)
  /-- FENCE (R105): Orders S's accesses of the named classes at a scope and makes writes visible. -/
  | fence (g s : BitVec 3) (m : BitVec 16)
  /-- FORK (R16): Starts the named engines at their heads. -/
  | fork (g : BitVec 3) (e : BitVec 6)
  /-- RDV (R16): Stalls S until the named engines are idle, then stops them. -/
  | rdv (g : BitVec 3) (e : BitVec 6)
  /-- TKSIG (R188): After S's accesses perform, pushes a token to an engine or arrives at the barrier network. -/
  | tksig (g e : BitVec 3)
  /-- TKWAIT (R188): Pops a token from an engine or a network completion token, acquiring. -/
  | tkwait (g e : BitVec 3)
  /-- ENQ (R189): Writes one word at the tail of an engine's fed ring, releasing S's accesses. -/
  | enq (g : BitVec 3) (e b : BitVec 5)
  /-- KSEND (R190): Writes a broadcast register after V has issued earlier enqueued entries. -/
  | ksend (g : BitVec 3) (k : BitVec 4) (b : BitVec 5)
  /-- IPOP (R191): Takes the oldest inbox entry into two registers, acquiring. -/
  | ipop (g : BitVec 3) (d a : BitVec 5)
  /-- HSET (R193): Writes a descriptor into a free slot and returns its handle. -/
  | hset (g : BitVec 3) (d a b : BitVec 5)
  /-- HFREE (R88): Clears VALID and increments the generation of a slot. -/
  | hfree (g : BitVec 3) (a : BitVec 5)
  /-- HGET (R193): Copies a slot's descriptor to core memory and returns its state. -/
  | hget (g : BitVec 3) (d a b : BitVec 5)
  /-- BEXP (R194): Applies expect n to a barrier object. -/
  | bexp (g : BitVec 3) (a b : BitVec 5)
  /-- BARR (R194): Arrives at a barrier object and returns the phase. -/
  | barr (g : BitVec 3) (d a : BitVec 5)
  /-- BWAIT (R194): Waits until a barrier's phase differs from the named one, acquiring. -/
  | bwait (g : BitVec 3) (a b : BitVec 5)
  /-- BMSET (R195): Writes one beam-map entry atomically. -/
  | bmset (g : BitVec 3) (d a b : BitVec 5)
  /-- BMCOPY (R195): Copies a beam-map row entry by entry. -/
  | bmcopy (g : BitVec 3) (d a b : BitVec 5)
  /-- DWAIT (R196): Waits for every producer to trigger or fault and reports the result. -/
  | dwait (g : BitVec 3) (d : BitVec 5) (p : BitVec 3)
  /-- TRIG (R196): Triggers the strand for its dependants, releasing its accesses. -/
  | trig (g : BitVec 3)
  /-- RTNEW (R197): Creates the cluster's range task over an interval. -/
  | rtnew (g : BitVec 3) (d a b : BitVec 5)
  /-- RTCLAIM (R198): Claims a chunk, a continuation or a split of another core's interval. -/
  | rtclaim (g : BitVec 3) (d a : BitVec 5) (p : BitVec 3)
  /-- DONE (R199): Decrements a join counter and hands its continuation on at zero. -/
  | done (g : BitVec 3) (a : BitVec 5)
  /-- TMSG (R200): Sends a payload to every live core of a stage. -/
  | tmsg (g : BitVec 3) (a b : BitVec 5)
  /-- TRECV (R200): Takes the oldest message, stalling or writing a predicate. -/
  | trecv (g : BitVec 3) (d a : BitVec 5) (p : BitVec 3)
  /-- PPUT (R144): Offers an entry to the strand's shard and traps if refused. -/
  | pput (g : BitVec 3) (d a b : BitVec 5)
  /-- PPUT_TRY (R144): Offers an entry and writes a predicate for acceptance. -/
  | pputTry (g : BitVec 3) (d a b : BitVec 5) (p : BitVec 3)
  /-- PTAKE (R147): Removes an entry within the rank bound, or returns empty. -/
  | ptake (g : BitVec 3) (d a b : BitVec 5) (p : BitVec 3)
  /-- PPEEK (R152): Copies the shard's best entry without removing it. -/
  | ppeek (g : BitVec 3) (d a b : BitVec 5) (p : BitVec 3)
  /-- EXIT (R204): Waits for engines and accesses, triggers, frees its interval and leaves the roster. -/
  | exit (g : BitVec 3)
  /-- HBEAT (R205): Counts as progress for the watchdog. -/
  | hbeat (g : BitVec 3)
  /-- SWTRAP (R206): Traps with cause 0x0C and a software code. -/
  | swtrap (g : BitVec 3) (n : BitVec 16)
  /-- ERET (R323): Leaves the handler and continues at CTX.EPC. -/
  | eret (g : BitVec 3)
  /-- GETCR (R207): Reads a control register into a scalar register. -/
  | getcr (g : BitVec 3) (d a : BitVec 5) (i : BitVec 12)
  /-- SETCR (R207): Writes a control register's defined fields. -/
  | setcr (g : BitVec 3) (d a : BitVec 5) (i : BitVec 12)
  /-- L_ENOP (R168): Waits and signals on L0 or L1. -/
  | lEnop (w : EWord)
  /-- LSTRM (R263): Streams a four-dimensional box into a data queue. -/
  | lstrm (w : EWord) (x1 x2 x3 : BitVec 56)
  /-- LGATH_BM (R265): Gathers bitmap-selected elements into data-queue elements. -/
  | lgathBm (w : EWord) (x1 x2 x3 : BitVec 56)
  /-- LGATH_RL (R265): Gathers run-list-selected elements into data-queue elements. -/
  | lgathRl (w : EWord) (x1 x2 x3 : BitVec 56)
  /-- LCBX (R269): Expands codebook indices through expansion banks. -/
  | lcbx (w : EWord) (x1 x2 : BitVec 56)
  /-- LCBTAB (R268): Loads one codebook table into an expansion bank. -/
  | lcbtab (w : EWord) (x1 : BitVec 56)
  /-- LPKLD (R270): Reloads a bitmask-and-values structure into dense lanes. -/
  | lpkld (w : EWord) (x1 x2 : BitVec 56)
  /-- LBMG (R266): Streams byte ranges of blocks named through a beam map. -/
  | lbmg (w : EWord) (x1 x2 x3 : BitVec 56)
  /-- W_SETRM (R63): Writes W.RM. -/
  | wSetrm (w : EWord)
  /-- W_ENOP (R168): Waits and signals on W. -/
  | wEnop (w : EWord)
  /-- WSTRM (R263): Writes store-queue elements to a box or block planes. -/
  | wstrm (w : EWord) (x1 x2 x3 : BitVec 56)
  /-- WPKST (R94): Packs elements into the free body of a bitmask-and-values structure. -/
  | wpkst (w : EWord) (x1 x2 : BitVec 56)
  /-- WSCAT (R271): Scatters lanes to indexed addresses. -/
  | wscat (w : EWord) (x1 x2 x3 : BitVec 56)
  /-- M_SETRM (R63): Writes M.RM. -/
  | mSetrm (w : EWord)
  /-- M_ENOP (R168): Waits and signals on M. -/
  | mEnop (w : EWord)
  /-- MLEASE (R282): Ends any lease, sets the designation and requests a lease. -/
  | mlease (w : EWord)
  /-- MREL (R282): Ends the lease and clears the designation. -/
  | mrel (w : EWord)
  /-- MMUL (R287): Multiplies block-format tiles into an accumulator tile. -/
  | mmul (w : EWord) (x1 : BitVec 56)
  /-- MMUL2 (R289): Multiplies into both arrays with one B operand. -/
  | mmul2 (w : EWord) (x1 x2 : BitVec 56)
  /-- MDRAIN (R292): Converts a tile region to memory, with optional clear and max-abs. -/
  | mdrain (w : EWord) (x1 x2 : BitVec 56)
  /-- MZERO (R293): Clears a tile. -/
  | mzero (w : EWord)
  /-- C_SETRM (R63): Writes C.RM. -/
  | cSetrm (w : EWord)
  /-- C_ENOP (R168): Waits and signals on the copy ring. -/
  | cEnop (w : EWord)
  /-- CCOPY (R274): Copies and converts bytes, maintaining the watermark. -/
  | ccopy (w : EWord) (x1 x2 : BitVec 56)
  /-- CWIN (R275): Writes explicit convolution windows. -/
  | cwin (w : EWord) (x1 x2 x3 : BitVec 56)
  /-- CADD (R277): Adds a memory region into an accumulator tile. -/
  | cadd (w : EWord) (x1 x2 : BitVec 56)
  /-- CACCLD (R277): Loads tile rows exactly from memory. -/
  | caccld (w : EWord) (x1 : BitVec 56)
  /-- CACCST (R277): Stores tile rows exactly to memory. -/
  | caccst (w : EWord) (x1 : BitVec 56)
  /-- CEXP (R276): Applies expect n to a barrier and binds it to the channel. -/
  | cexp (w : EWord) (x1 : BitVec 56)
  /-- CARR (R276): Arrives at a barrier when the channel executes it. -/
  | carr (w : EWord) (x1 : BitVec 56)
  /-- TR_INV_COMPLETE (R359): No table holds the entries and their accesses have performed, so BUSY clears. -/
  | trInvComplete
  /-- EVENT_LOG_TICK (R388): Once a second correctable-error counts are logged. -/
  | eventLogTick
  /-- FQ_ACK_RETRY (R363): Acknowledges a record with RETRY, reissuing or resuming the unit. -/
  | fqAckRetry (die seq : Nat)
  /-- FQ_ACK_SKIP (R363): Acknowledges a record with SKIP, retiring the trapped work. -/
  | fqAckSkip (die seq : Nat)
  /-- FQ_ACK_KILL (R363): Acknowledges a record with KILL, killing the context. -/
  | fqAckKill (die seq : Nat)
  /-- TR_INV (R359): Broadcasts an invalidation of a context's translations. -/
  | trInv (w : BitVec 64)
  /-- MIR_NONE (R324): Mirror command 0 does nothing and clears ERR. The CTX field of MIR.CTL is written as it stands. -/
  | mirNone (core : Nat)
  /-- FREEZE (R325): Stops a core at a cycle boundary, holding its in-flight state. The CTX field of MIR.CTL is written as it stands. -/
  | freeze (core : Nat)
  /-- SAVE (R327): Waits for in-flight work, then writes the Mirror area with the header last. The CTX field of MIR.CTL is written as it stands. -/
  | save (core : Nat)
  /-- IMGOUT (R331): Writes the core image to MIR.IMG. The CTX field of MIR.CTL is written as it stands. -/
  | imgout (core : Nat)
  /-- IMGIN (R331): Writes core memory and full-empty bits from MIR.IMG. -/
  | imgin (core ctx : Nat)
  /-- LOAD (R332): Checks a Mirror area and writes it into a target core. -/
  | load (core ctx : Nat)
  /-- RESUME (R333): Starts a frozen core, landing its pending results on schedule. The CTX field of MIR.CTL is written as it stands. -/
  | resume (core : Nat)
  /-- DISCARD (R324): Ends a frozen or saved strand and invalidates its area. The CTX field of MIR.CTL is written as it stands. -/
  | discard (core : Nat)
  /-- MIR_RESERVED (R324): A reserved Mirror command code traps the writer. -/
  | mirReserved (core cmd : Nat)
  /-- CP_GO (R335): Starts the system copy port's entry, checking and dispatching it. -/
  | cpGo (cl : Nat) (w : BitVec 64)
  /-- STREAM_START (R337): System software starts a command processor on a stream. -/
  | streamStart (die : Nat) (w : BitVec 64)
  /-- CMD_RESUME (R354): Resumes the paused stream and scoreboard entries of a context on a die. -/
  | cmdResume (die ctx : Nat)
  /-- CORRECTABLE_ERROR (R366): A corrected SRAM error freezes the domain for 40 pulses. -/
  | correctableError (cl : Nat)
  /-- UNCORRECTABLE_ERROR (R367): An uncorrectable error poisons its granule. -/
  | uncorrectableError (kind where_ : Nat)
  /-- STATE_LOST (R369): Unpoisonable state is lost and the owning context is killed. Kind 0: a core's; kind 1 + d: a pool's, lost by the pool unit of die d. -/
  | stateLost (kind n : Nat)
  /-- FATAL_ERROR (R371): An unowned error stops the package or partition and writes the dump. -/
  | fatalError (die unit : Nat)
  /-- DLV_DESC_WRITE (R373): Enables or disables a delivery unit on a descriptor. -/
  | dlvDescWrite (die : Nat) (w : BitVec 64)
  /-- SYS_PART_WRITE (R379): Management divides the package into partitions. -/
  | sysPartWrite (w : BitVec 64)
  /-- TSUIQ_COPY (R381): A Tsuiq port copies a range to another package. -/
  | tsuiqCopy (port src dst len tag : Nat)
  /-- PCIE_BAR2_WRITE (R382): A host write through BAR2 performs at system scope in arrival order. The address is function * 2^36 + offset. With no bytes, system software sets the translation of the 64 KiB page at the offset: the word is its physical address / 65536. -/
  | pcieBar2Write (addr len : Nat) (w : BitVec 4096)
  /-- POWER_GOOD (R383): Power-good starts the boot stages. -/
  | powerGood
  /-- BOOT_STAGE_TIMEOUT (R383): A boot stage exceeds its limit and the boot fails. -/
  | bootStageTimeout
  /-- SYS_READY_WRITE (R383): The general cores set READY in stage 4. -/
  | sysReadyWrite (w : BitVec 64)
  /-- UPDATE_WRITE (R385): An update written through the mailbox is verified into the non-booted slot: its first 16 bytes, its public key, and its payload with the signature behind it, as numbers. -/
  | updateWrite (head pk body : Nat)
  /-- SENSOR_SAMPLE (R387): Sensors refresh every 1 ms and management adjusts throttling. -/
  | sensorSample (die sensor : Nat) (w : BitVec 32)
  /-- WINDOW_REGISTER_WRITE (R386): A write to a window register without its own row. The access is offset + 2^26 * view + 2^29 * kind. View: 0 the general cores and command processors, 1 + f BAR0 of function f, 5 management. Kind: 0 an 8-byte write, 1 an 8-byte read, 2 an access of another size. -/
  | windowRegisterWrite (acc : Nat) (w : BitVec 64)
  /-- CONTEXT_CREATE (R63): Creating a context resets the rounding registers, the accumulator tiles, the coder lanes, the q registers and the CDF banks. -/
  | contextCreate (ctx : Nat)
  /-- POOL_ALLOCATE (R139): System software allocates a pool to a context, and the pool cycle in which this takes effect anchors its snapshot periods. The grant holds the context in bits 15 to 0, and the heap area of die d in the 52 bits from bit 16 + 52 * d. -/
  | poolAllocate (pool grant : Nat)
  /-- POOL_FREE (R144): Freeing a pool removes its entries, including accepted inserts. -/
  | poolFree (pool : Nat)
  /-- SCALAR_WORD_NOT_INSTRUCTION (R163): S issues a word that fails decoding and traps with cause 0x01, 0x02, 0x08 or 0x09, whatever its guard. -/
  | scalarWordNotInstruction (w : BitVec 32)
  /-- ENGINE_WORD_NOT_COMMAND (R171): An engine finds at its head a present word with an unassigned opcode or a misplaced extension word, and traps without waiting for its tokens. -/
  | engineWordNotCommand (w : BitVec 64)
  /-- SYSTEM_WRITER_WRITE (R115): A general core, the management processor or another system writer writes device memory, leaving a system shadow record. -/
  | systemWriterWrite (unit addr len : Nat) (w : BitVec 512)
  /-- BOOT_STAGE_DONE (R383): A boot stage completes or fails within its limit, and the next stage begins or the boot ends with a REASON. -/
  | bootStageDone
  /-- POWER_DOWN (R383): Power-down ends operation and clears SYS.READY. -/
  | powerDown
  /-- TSUIQ_LINK_LOST (R381): A Tsuiq link is lost during a copy, which then completes with STATUS 1. -/
  | tsuiqLinkLost (port : Nat)
  /-- V_SETRM (R234): Writes V.RM at issue. -/
  | vSetrm (w : VWord)
  /-- V_ENOP (R234): Pops wait tokens and pushes signal tokens on V. -/
  | vEnop (w : VWord)
  /-- VTOS (R227): Pushes a lane, V.RES or a mask to S's inbox. -/
  | vtos (w : VWord)
  /-- VLOOP (R230): Runs the following body entries as a software-pipelined loop. -/
  | vloop (w : VWord)
  /-- VDEFER (R228): Appends enabled lanes to a deferral queue. -/
  | vdefer (w : VWord)
  /-- VDRAIN (R229): Pops up to 64 deferral records into four registers and a mask. -/
  | vdrain (w : VWord)
  /-- VSEL (R218): Selects lanes of two sources by a mask. -/
  | vsel (w : VWord)
  /-- VMAND (R219): ANDs two masks under the command mask. -/
  | vmand (w : VWord)
  /-- VMOR (R219): ORs two masks under the command mask. -/
  | vmor (w : VWord)
  /-- VMXOR (R219): XORs two masks under the command mask. -/
  | vmxor (w : VWord)
  /-- VMANDN (R219): Writes ma AND NOT mb under the command mask. -/
  | vmandn (w : VWord)
  /-- VMNOT (R219): Inverts a mask under the command mask. -/
  | vmnot (w : VWord)
  /-- VMPOP (R219): Writes a mask's population count to every enabled lane. -/
  | vmpop (w : VWord)
  /-- VADD_I32 (R215): Lane-wise 32-bit add. -/
  | vaddI32 (w : VWord)
  /-- VSUB_I32 (R215): Lane-wise 32-bit subtract. -/
  | vsubI32 (w : VWord)
  /-- VMUL_I32 (R215): Lane-wise low 32 bits of the product. -/
  | vmulI32 (w : VWord)
  /-- VMULH_I32 (R215): Lane-wise high 32 bits of the signed product. -/
  | vmulhI32 (w : VWord)
  /-- VMULH_N32 (R215): Lane-wise high 32 bits of the unsigned product. -/
  | vmulhN32 (w : VWord)
  /-- VDIV_I32 (R215): Lane-wise signed divide. -/
  | vdivI32 (w : VWord)
  /-- VDIV_N32 (R215): Lane-wise unsigned divide. -/
  | vdivN32 (w : VWord)
  /-- VMIN_I32 (R215): Lane-wise signed minimum. -/
  | vminI32 (w : VWord)
  /-- VMAX_I32 (R215): Lane-wise signed maximum. -/
  | vmaxI32 (w : VWord)
  /-- VMIN_N32 (R215): Lane-wise unsigned minimum. -/
  | vminN32 (w : VWord)
  /-- VMAX_N32 (R215): Lane-wise unsigned maximum. -/
  | vmaxN32 (w : VWord)
  /-- VADDS_I32 (R215): Lane-wise saturating add. -/
  | vaddsI32 (w : VWord)
  /-- VAND (R215): Lane-wise AND. -/
  | vand (w : VWord)
  /-- VOR (R215): Lane-wise OR. -/
  | vor (w : VWord)
  /-- VXOR (R215): Lane-wise XOR. -/
  | vxor (w : VWord)
  /-- VANDN (R215): Lane-wise AND NOT. -/
  | vandn (w : VWord)
  /-- VSLL (R215): Lane-wise shift left. -/
  | vsll (w : VWord)
  /-- VSRL (R215): Lane-wise logical shift right. -/
  | vsrl (w : VWord)
  /-- VSRA (R215): Lane-wise arithmetic shift right. -/
  | vsra (w : VWord)
  /-- VCLZ (R215): Lane-wise count of leading zeros. -/
  | vclz (w : VWord)
  /-- VCLMUL (R215): Lane-wise low half of the carry-less product. -/
  | vclmul (w : VWord)
  /-- VCLMULH (R215): Lane-wise high half of the carry-less product. -/
  | vclmulh (w : VWord)
  /-- VADD_F32 (R216): Lane-wise binary32 add. -/
  | vaddF32 (w : VWord)
  /-- VSUB_F32 (R216): Lane-wise binary32 subtract. -/
  | vsubF32 (w : VWord)
  /-- VMUL_F32 (R216): Lane-wise binary32 multiply. -/
  | vmulF32 (w : VWord)
  /-- VFMA_F32 (R216): Lane-wise fused multiply-add. -/
  | vfmaF32 (w : VWord)
  /-- VFMS_F32 (R216): Lane-wise fused multiply-subtract. -/
  | vfmsF32 (w : VWord)
  /-- VDIV_F32 (R216): Lane-wise binary32 divide. -/
  | vdivF32 (w : VWord)
  /-- VSQRT_F32 (R216): Lane-wise binary32 square root. -/
  | vsqrtF32 (w : VWord)
  /-- VMIN_F32 (R216): Lane-wise binary32 minimum. -/
  | vminF32 (w : VWord)
  /-- VMAX_F32 (R216): Lane-wise binary32 maximum. -/
  | vmaxF32 (w : VWord)
  /-- VABS_F32 (R216): Lane-wise absolute value. -/
  | vabsF32 (w : VWord)
  /-- VNEG_F32 (R216): Lane-wise negation. -/
  | vnegF32 (w : VWord)
  /-- VEXP2_F32 (R216): Lane-wise correctly rounded power of two. -/
  | vexp2F32 (w : VWord)
  /-- VCMP_EQ_I32 (R217): Writes a mask of equal integer lanes. -/
  | vcmpEqI32 (w : VWord)
  /-- VCMP_LT_I32 (R217): Writes a mask of signed less-than lanes. -/
  | vcmpLtI32 (w : VWord)
  /-- VCMP_LE_I32 (R217): Writes a mask of signed less-or-equal lanes. -/
  | vcmpLeI32 (w : VWord)
  /-- VCMP_LT_N32 (R217): Writes a mask of unsigned less-than lanes. -/
  | vcmpLtN32 (w : VWord)
  /-- VCMP_EQ_F32 (R217): Writes a mask of equal binary32 lanes. -/
  | vcmpEqF32 (w : VWord)
  /-- VCMP_LT_F32 (R217): Writes a mask of binary32 less-than lanes. -/
  | vcmpLtF32 (w : VWord)
  /-- VCMP_LE_F32 (R217): Writes a mask of binary32 less-or-equal lanes. -/
  | vcmpLeF32 (w : VWord)
  /-- VCMP_UN_F32 (R217): Writes a mask of unordered lanes. -/
  | vcmpUnF32 (w : VWord)
  /-- VCVT_F32_I32 (R220): Converts int32 lanes to binary32. -/
  | vcvtF32I32 (w : VWord)
  /-- VCVT_I32_F32 (R220): Converts binary32 lanes to saturated int32. -/
  | vcvtI32F32 (w : VWord)
  /-- VCVT_F32_F16 (R220): Widens binary16 lanes to binary32. -/
  | vcvtF32F16 (w : VWord)
  /-- VCVT_F32_BF16 (R220): Widens bfloat16 lanes to binary32. -/
  | vcvtF32Bf16 (w : VWord)
  /-- VCVT_F16_F32 (R220): Narrows binary32 lanes to binary16. -/
  | vcvtF16F32 (w : VWord)
  /-- VCVT_BF16_F32 (R220): Narrows binary32 lanes to bfloat16. -/
  | vcvtBf16F32 (w : VWord)
  /-- VNARROW (R221): Narrows two blocks to a block format with given exponents, marking outliers. -/
  | vnarrow (w : VWord)
  /-- VWIDEN (R222): Widens block mantissas to exact binary32. -/
  | vwiden (w : VWord)
  /-- VPERM (R223): Permutes lanes by an index vector. -/
  | vperm (w : VWord)
  /-- VSLIDEUP (R223): Slides lanes up by n. -/
  | vslideup (w : VWord)
  /-- VSLIDEDN (R223): Slides lanes down by n. -/
  | vslidedn (w : VWord)
  /-- VBCAST (R223): Broadcasts one lane to all lanes. -/
  | vbcast (w : VWord)
  /-- VMOV (R223): Copies lanes, optionally adding the lane number. -/
  | vmov (w : VWord)
  /-- VREDADD_F32 (R224): Reduces enabled lanes by binary32 addition in a fixed tree. -/
  | vredaddF32 (w : VWord)
  /-- VREDADD_F64 (R224): Reduces enabled lanes by binary64 addition into V.RES. -/
  | vredaddF64 (w : VWord)
  /-- VREDMAX_F32 (R224): Reduces enabled lanes to their maximum. -/
  | vredmaxF32 (w : VWord)
  /-- VREDADD_I32 (R224): Reduces enabled lanes by integer addition. -/
  | vredaddI32 (w : VWord)
  /-- VTOPK (R226): Merges candidates into a running top-k state. -/
  | vtopk (w : VWord)
  /-- RCINIT_D (R251): Starts decoding a coded stream on each enabled lane. -/
  | rcinitD (w : VWord)
  /-- RCINIT_E (R251): Starts encoding a stream on each enabled lane. -/
  | rcinitE (w : VWord)
  /-- RCFIN (R252): Finishes each enabled lane, flushing an encoder and writing its header. -/
  | rcfin (w : VWord)
  /-- RCSTAT (R254): Writes one field of coder state per lane. -/
  | rcstat (w : VWord)
  /-- RCDEC (R253): Decodes one binary decision per enabled lane. -/
  | rcdec (w : VWord)
  /-- RCDECM (R253): Decodes one multi-symbol decision per lane from a CDF table. -/
  | rcdecm (w : VWord)
  /-- RCENC (R253): Encodes one binary decision per enabled lane. -/
  | rcenc (w : VWord)
  /-- RCENCM (R253): Encodes one multi-symbol decision per lane. -/
  | rcencm (w : VWord)
  /-- RCKPT (R255): Saves lane state into a checkpoint slot. -/
  | rckpt (w : VWord)
  /-- RCROLL (R255): Restores lane state from a checkpoint slot. -/
  | rcroll (w : VWord)
  /-- QSQ (R256): Writes the squash of a logit to a probability register. -/
  | qsq (w : VWord)
  /-- QMOV (R256): Writes clamped values to a probability register. -/
  | qmov (w : VWord)
  /-- QADAPT (R256): Adapts probabilities toward an observed bit. -/
  | qadapt (w : VWord)
  /-- CDFSW (R246): Loads a CDF image into a slot's inactive bank. -/
  | cdfsw (w : VWord)
  deriving DecidableEq, Repr

end Sys2Proof
end

