-- ==== Sys2Proof/Decode.lean ====
section
/-! DEFINITION. Decoding of scalar words (R156 to R163) and engine command words (R164 to R171), and the encoder
written from the same tables. Decoding is total: a word that is no instruction gives none, and the step then runs
scalarWordNotInstruction or engineWordNotCommand, which find the cause. -/
namespace Sys2Proof

/-! ### The fields of a scalar word -/

/-- The guard of a scalar word (R156). -/
def fG (w : BitVec 32) : BitVec 3 := w.extractLsb' 29 3
/-- The major opcode (R156). -/
def fMajor (w : BitVec 32) : BitVec 7 := w.extractLsb' 22 7
/-- rd (R156). -/
def fD (w : BitVec 32) : BitVec 5 := w.extractLsb' 17 5
/-- ra (R156). -/
def fA (w : BitVec 32) : BitVec 5 := w.extractLsb' 12 5
/-- rb (R156). -/
def fB (w : BitVec 32) : BitVec 5 := w.extractLsb' 7 5
/-- fn of format RR (R156). -/
def fFn (w : BitVec 32) : BitVec 7 := w.extractLsb' 0 7
/-- imm12 of format RI (R156). -/
def fImm12 (w : BitVec 32) : BitVec 12 := w.extractLsb' 0 12
/-- imm17 of format LI (R156). -/
def fImm17 (w : BitVec 32) : BitVec 17 := w.extractLsb' 0 17
/-- The ordering class of format MEM (R156). -/
def fClass (w : BitVec 32) : BitVec 4 := w.extractLsb' 8 4
/-- off8 of format MEM (R156). -/
def fOff8 (w : BitVec 32) : BitVec 8 := w.extractLsb' 0 8
/-- off22 of format BR (R156). -/
def fOff22 (w : BitVec 32) : BitVec 22 := w.extractLsb' 0 22
/-- fn6 of format SYS (R156). -/
def fFn6 (w : BitVec 32) : BitVec 6 := w.extractLsb' 16 6
/-- imm16 of format SYS (R156). -/
def fImm16 (w : BitVec 32) : BitVec 16 := w.extractLsb' 0 16

/-- A predicate number in a register field: the upper two bits must be zero (R157). -/
def predOf (f : BitVec 5) : Option (BitVec 3) :=
  if f.extractLsb' 3 2 = 0#2 then some (f.extractLsb' 0 3) else none

/-- Major 0x01 (R159, R160). -/
def decodeInt (w : BitVec 32) : Option Instr :=
  match (fFn w).toNat with
  | 0 => some (.add (fG w) (fD w) (fA w) (fB w))
  | 1 => some (.sub (fG w) (fD w) (fA w) (fB w))
  | 2 => some (.and (fG w) (fD w) (fA w) (fB w))
  | 3 => some (.or (fG w) (fD w) (fA w) (fB w))
  | 4 => some (.xor (fG w) (fD w) (fA w) (fB w))
  | 5 => some (.andn (fG w) (fD w) (fA w) (fB w))
  | 6 => some (.sll (fG w) (fD w) (fA w) (fB w))
  | 7 => some (.srl (fG w) (fD w) (fA w) (fB w))
  | 8 => some (.sra (fG w) (fD w) (fA w) (fB w))
  | 9 => some (.mul (fG w) (fD w) (fA w) (fB w))
  | 10 => some (.mulh (fG w) (fD w) (fA w) (fB w))
  | 11 => some (.mulhn (fG w) (fD w) (fA w) (fB w))
  | 12 => some (.div (fG w) (fD w) (fA w) (fB w))
  | 13 => some (.divn (fG w) (fD w) (fA w) (fB w))
  | 14 => some (.rem (fG w) (fD w) (fA w) (fB w))
  | 15 => some (.remn (fG w) (fD w) (fA w) (fB w))
  | 16 => some (.min (fG w) (fD w) (fA w) (fB w))
  | 17 => some (.max (fG w) (fD w) (fA w) (fB w))
  | 18 => some (.minn (fG w) (fD w) (fA w) (fB w))
  | 19 => some (.maxn (fG w) (fD w) (fA w) (fB w))
  | 20 => if w.extractLsb' 7 5 = 0#5 then some (.clz (fG w) (fD w) (fA w)) else none
  | 21 => if w.extractLsb' 7 5 = 0#5 then some (.ctz (fG w) (fD w) (fA w)) else none
  | 22 => if w.extractLsb' 7 5 = 0#5 then some (.popc (fG w) (fD w) (fA w)) else none
  | 23 => some (.clmul (fG w) (fD w) (fA w) (fB w))
  | 24 => some (.clmulh (fG w) (fD w) (fA w) (fB w))
  | 25 => some (.sh1add (fG w) (fD w) (fA w) (fB w))
  | 26 => some (.sh2add (fG w) (fD w) (fA w) (fB w))
  | 27 => some (.sh3add (fG w) (fD w) (fA w) (fB w))
  | 28 => some (.sh4add (fG w) (fD w) (fA w) (fB w))
  | _ => none

/-- Major 0x10 (R159, R160). -/
def decodeCmp (w : BitVec 32) : Option Instr :=
  match (fFn w).toNat with
  | 0 => if w.extractLsb' 20 2 = 0#2 then some (.cmpEq (fG w) (w.extractLsb' 17 3) (fA w) (fB w)) else none
  | 1 => if w.extractLsb' 20 2 = 0#2 then some (.cmpNe (fG w) (w.extractLsb' 17 3) (fA w) (fB w)) else none
  | 2 => if w.extractLsb' 20 2 = 0#2 then some (.cmpLt (fG w) (w.extractLsb' 17 3) (fA w) (fB w)) else none
  | 3 => if w.extractLsb' 20 2 = 0#2 then some (.cmpGe (fG w) (w.extractLsb' 17 3) (fA w) (fB w)) else none
  | 4 => if w.extractLsb' 20 2 = 0#2 then some (.cmpLtn (fG w) (w.extractLsb' 17 3) (fA w) (fB w)) else none
  | 5 => if w.extractLsb' 20 2 = 0#2 then some (.cmpGen (fG w) (w.extractLsb' 17 3) (fA w) (fB w)) else none
  | _ => none

/-- Major 0x17 (R159, R160). -/
def decodePred (w : BitVec 32) : Option Instr :=
  match (fFn w).toNat with
  | 0 => if w.extractLsb' 10 2 = 0#2 ∧ w.extractLsb' 15 2 = 0#2 ∧ w.extractLsb' 20 2 = 0#2 then some (.pand (fG w) (w.extractLsb' 17 3) (w.extractLsb' 12 3) (w.extractLsb' 7 3)) else none
  | 1 => if w.extractLsb' 10 2 = 0#2 ∧ w.extractLsb' 15 2 = 0#2 ∧ w.extractLsb' 20 2 = 0#2 then some (.por (fG w) (w.extractLsb' 17 3) (w.extractLsb' 12 3) (w.extractLsb' 7 3)) else none
  | 2 => if w.extractLsb' 10 2 = 0#2 ∧ w.extractLsb' 15 2 = 0#2 ∧ w.extractLsb' 20 2 = 0#2 then some (.pxor (fG w) (w.extractLsb' 17 3) (w.extractLsb' 12 3) (w.extractLsb' 7 3)) else none
  | 3 => if w.extractLsb' 10 2 = 0#2 ∧ w.extractLsb' 15 2 = 0#2 ∧ w.extractLsb' 20 2 = 0#2 then some (.pandn (fG w) (w.extractLsb' 17 3) (w.extractLsb' 12 3) (w.extractLsb' 7 3)) else none
  | 4 => if w.extractLsb' 7 5 = 0#5 ∧ w.extractLsb' 15 2 = 0#2 ∧ w.extractLsb' 20 2 = 0#2 then some (.pnot (fG w) (w.extractLsb' 17 3) (w.extractLsb' 12 3)) else none
  | 5 => if w.extractLsb' 20 2 = 0#2 then some (.pset (fG w) (w.extractLsb' 17 3) (fA w)) else none
  | 6 => if w.extractLsb' 15 2 = 0#2 then some (.pget (fG w) (fD w) (w.extractLsb' 12 3)) else none
  | _ => none

/-- Major 0x18 (R159, R160). -/
def decodeSel (w : BitVec 32) : Option Instr :=
  if w.extractLsb' 3 4 = 0#4 then some (.sel (fG w) (fD w) (fA w) (fB w) (w.extractLsb' 0 3)) else none

/-- Major 0x22 (R159, R160). -/
def decodeJump (w : BitVec 32) : Option Instr :=
  match (fFn w).toNat with
  | 0 => some (.jr (fG w) (fA w))
  | 1 => some (.callr (fG w) (fA w))
  | 2 => if w.extractLsb' 7 15 = 0#15 then some (.ret (fG w)) else none
  | _ => none

/-- Major 0x58 (R159, R160). -/
def decodeAtomic32 (w : BitVec 32) : Option Instr :=
  match (w.extractLsb' 0 3).toNat with
  | 0 => some (.aaddN32 (fG w) (fD w) (fA w) (fB w) (w.extractLsb' 3 4))
  | 1 => some (.aswpN32 (fG w) (fD w) (fA w) (fB w) (w.extractLsb' 3 4))
  | 2 => some (.amaxI32 (fG w) (fD w) (fA w) (fB w) (w.extractLsb' 3 4))
  | 3 => some (.amaxN32 (fG w) (fD w) (fA w) (fB w) (w.extractLsb' 3 4))
  | 4 => some (.aminI32 (fG w) (fD w) (fA w) (fB w) (w.extractLsb' 3 4))
  | 5 => some (.aminN32 (fG w) (fD w) (fA w) (fB w) (w.extractLsb' 3 4))
  | 6 => some (.aorN32 (fG w) (fD w) (fA w) (fB w) (w.extractLsb' 3 4))
  | 7 => some (.acasN32 (fG w) (fD w) (fA w) (fB w) (w.extractLsb' 3 4))
  | _ => none

/-- Major 0x59 (R159, R160). -/
def decodeAtomic64 (w : BitVec 32) : Option Instr :=
  match (w.extractLsb' 0 3).toNat with
  | 0 => some (.aaddN64 (fG w) (fD w) (fA w) (fB w) (w.extractLsb' 3 4))
  | 1 => some (.aswpN64 (fG w) (fD w) (fA w) (fB w) (w.extractLsb' 3 4))
  | 2 => some (.amaxI64 (fG w) (fD w) (fA w) (fB w) (w.extractLsb' 3 4))
  | 3 => some (.amaxN64 (fG w) (fD w) (fA w) (fB w) (w.extractLsb' 3 4))
  | 4 => some (.aminI64 (fG w) (fD w) (fA w) (fB w) (w.extractLsb' 3 4))
  | 5 => some (.aminN64 (fG w) (fD w) (fA w) (fB w) (w.extractLsb' 3 4))
  | 6 => some (.aorN64 (fG w) (fD w) (fA w) (fB w) (w.extractLsb' 3 4))
  | 7 => some (.acasN64 (fG w) (fD w) (fA w) (fB w) (w.extractLsb' 3 4))
  | _ => none

/-- Major 0x61 (R159, R160). -/
def decodeEngine (w : BitVec 32) : Option Instr :=
  match (fFn w).toNat with
  | 0 => if 1 ≤ (fD w).toNat ∧ (fD w).toNat ≤ 6 then some (.enq (fG w) (fD w) (fB w)) else none
  | 1 => if w.extractLsb' 21 1 = 0#1 then some (.ksend (fG w) (w.extractLsb' 17 4) (fB w)) else none
  | 2 => some (.ipop (fG w) (fD w) (fA w))
  | _ => none

/-- Major 0x62 (R159, R160). -/
def decodeObject (w : BitVec 32) : Option Instr :=
  match (fFn w).toNat with
  | 0 => some (.hset (fG w) (fD w) (fA w) (fB w))
  | 1 => if w.extractLsb' 7 5 = 0#5 ∧ w.extractLsb' 17 5 = 0#5 then some (.hfree (fG w) (fA w)) else none
  | 2 => some (.hget (fG w) (fD w) (fA w) (fB w))
  | 3 => some (.bexp (fG w) (fA w) (fB w))
  | 4 => some (.barr (fG w) (fD w) (fA w))
  | 5 => some (.bwait (fG w) (fA w) (fB w))
  | 6 => some (.bmset (fG w) (fD w) (fA w) (fB w))
  | 7 => some (.bmcopy (fG w) (fD w) (fA w) (fB w))
  | _ => none

/-- Major 0x63 (R159, R160). -/
def decodeWork (w : BitVec 32) : Option Instr :=
  match (w.extractLsb' 0 4).toNat with
  | 0 => some (.dwait (fG w) (fD w) (w.extractLsb' 4 3))
  | 1 => if w.extractLsb' 4 18 = 0#18 then some (.trig (fG w)) else none
  | 2 => if w.extractLsb' 4 3 = 0#3 then some (.rtnew (fG w) (fD w) (fA w) (fB w)) else none
  | 3 => some (.rtclaim (fG w) (fD w) (fA w) (w.extractLsb' 4 3))
  | 4 => if w.extractLsb' 4 3 = 0#3 then some (.done (fG w) (fA w)) else none
  | 5 => if w.extractLsb' 4 3 = 0#3 then some (.tmsg (fG w) (fA w) (fB w)) else none
  | 6 => some (.trecv (fG w) (fD w) (fA w) (w.extractLsb' 4 3))
  | _ => none

/-- Major 0x64 (R159, R160). -/
def decodePool (w : BitVec 32) : Option Instr :=
  match (w.extractLsb' 0 4).toNat with
  | 0 => if w.extractLsb' 4 3 = 0#3 then some (.pput (fG w) (fD w) (fA w) (fB w)) else none
  | 1 => some (.pputTry (fG w) (fD w) (fA w) (fB w) (w.extractLsb' 4 3))
  | 2 => some (.ptake (fG w) (fD w) (fA w) (fB w) (w.extractLsb' 4 3))
  | 3 => some (.ppeek (fG w) (fD w) (fA w) (fB w) (w.extractLsb' 4 3))
  | _ => none

/-- Major 0x23 (R161). -/
def decodePrism (w : BitVec 32) : Option Instr :=
  match (fFn6 w).toNat with
  | 0 => if w.extractLsb' 0 16 = 0#16 then some (.detach (fG w)) else none
  | 1 => some (.join (fG w) (w.extractLsb' 13 3) (w.extractLsb' 0 13))
  | _ => none

/-- Major 0x60 (R161). -/
def decodeEngCtl (w : BitVec 32) : Option Instr :=
  match (fFn6 w).toNat with
  | 0 => if w.extractLsb' 0 1 = 0#1 ∧ w.extractLsb' 7 9 = 0#9 then some (.fork (fG w) (w.extractLsb' 1 6)) else none
  | 1 => if w.extractLsb' 0 1 = 0#1 ∧ w.extractLsb' 7 9 = 0#9 then some (.rdv (fG w) (w.extractLsb' 1 6)) else none
  | 2 => if w.extractLsb' 3 13 = 0#13 then some (.tksig (fG w) (w.extractLsb' 0 3)) else none
  | 3 => if w.extractLsb' 3 13 = 0#13 then some (.tkwait (fG w) (w.extractLsb' 0 3)) else none
  | _ => none

/-- Major 0x65 (R161). -/
def decodeSystem (w : BitVec 32) : Option Instr :=
  match (fFn6 w).toNat with
  | 0 => if w.extractLsb' 0 16 = 0#16 then some (.exit (fG w)) else none
  | 1 => if w.extractLsb' 0 16 = 0#16 then some (.hbeat (fG w)) else none
  | 2 => some (.swtrap (fG w) (fImm16 w))
  | 3 => if w.extractLsb' 0 16 = 0#16 then some (.eret (fG w)) else none
  | _ => none

/-- The instruction of a scalar word; none where checks 1 and 2 of R163 fail. The checks of R162, which depend on
the strand, are made when the instruction issues. -/
def decodeScalar (w : BitVec 32) : Option Instr :=
  match (fMajor w).toNat with
  | 1 => decodeInt w
  | 2 => some (.addi (fG w) (fD w) (fA w) (fImm12 w))
  | 3 => some (.muli (fG w) (fD w) (fA w) (fImm12 w))
  | 4 => some (.andi (fG w) (fD w) (fA w) (fImm12 w))
  | 5 => some (.ori (fG w) (fD w) (fA w) (fImm12 w))
  | 6 => some (.xori (fG w) (fD w) (fA w) (fImm12 w))
  | 7 => if w.extractLsb' 6 6 = 0#6 then some (.slli (fG w) (fD w) (fA w) (w.extractLsb' 0 6)) else none
  | 8 => if w.extractLsb' 6 6 = 0#6 then some (.srli (fG w) (fD w) (fA w) (w.extractLsb' 0 6)) else none
  | 9 => if w.extractLsb' 6 6 = 0#6 then some (.srai (fG w) (fD w) (fA w) (w.extractLsb' 0 6)) else none
  | 10 => some (.li (fG w) (fD w) (fImm17 w))
  | 11 => some (.lsi (fG w) (fD w) (fImm17 w))
  | 16 => decodeCmp w
  | 17 => if w.extractLsb' 20 2 = 0#2 then some (.cmpiEq (fG w) (w.extractLsb' 17 3) (fA w) (fImm12 w)) else none
  | 18 => if w.extractLsb' 20 2 = 0#2 then some (.cmpiNe (fG w) (w.extractLsb' 17 3) (fA w) (fImm12 w)) else none
  | 19 => if w.extractLsb' 20 2 = 0#2 then some (.cmpiLt (fG w) (w.extractLsb' 17 3) (fA w) (fImm12 w)) else none
  | 20 => if w.extractLsb' 20 2 = 0#2 then some (.cmpiGe (fG w) (w.extractLsb' 17 3) (fA w) (fImm12 w)) else none
  | 21 => if w.extractLsb' 20 2 = 0#2 then some (.cmpiLtn (fG w) (w.extractLsb' 17 3) (fA w) (fImm12 w)) else none
  | 22 => if w.extractLsb' 20 2 = 0#2 then some (.cmpiGen (fG w) (w.extractLsb' 17 3) (fA w) (fImm12 w)) else none
  | 23 => decodePred w
  | 24 => decodeSel w
  | 32 => some (.br (fG w) (fOff22 w))
  | 33 => some (.call (fG w) (fOff22 w))
  | 34 => decodeJump w
  | 35 => decodePrism w
  | 48 => some (.ldI8 (fG w) (fD w) (fA w) (fClass w) (fOff8 w))
  | 49 => some (.ldN8 (fG w) (fD w) (fA w) (fClass w) (fOff8 w))
  | 50 => some (.ldI16 (fG w) (fD w) (fA w) (fClass w) (fOff8 w))
  | 51 => some (.ldN16 (fG w) (fD w) (fA w) (fClass w) (fOff8 w))
  | 52 => some (.ldI32 (fG w) (fD w) (fA w) (fClass w) (fOff8 w))
  | 53 => some (.ldN32 (fG w) (fD w) (fA w) (fClass w) (fOff8 w))
  | 54 => some (.ldN64 (fG w) (fD w) (fA w) (fClass w) (fOff8 w))
  | 56 => some (.ldI8W (fG w) (fD w) (fA w) (fClass w) (fOff8 w))
  | 57 => some (.ldN8W (fG w) (fD w) (fA w) (fClass w) (fOff8 w))
  | 58 => some (.ldI16W (fG w) (fD w) (fA w) (fClass w) (fOff8 w))
  | 59 => some (.ldN16W (fG w) (fD w) (fA w) (fClass w) (fOff8 w))
  | 60 => some (.ldI32W (fG w) (fD w) (fA w) (fClass w) (fOff8 w))
  | 61 => some (.ldN32W (fG w) (fD w) (fA w) (fClass w) (fOff8 w))
  | 62 => some (.ldN64W (fG w) (fD w) (fA w) (fClass w) (fOff8 w))
  | 64 => some (.ldI8Wc (fG w) (fD w) (fA w) (fClass w) (fOff8 w))
  | 65 => some (.ldN8Wc (fG w) (fD w) (fA w) (fClass w) (fOff8 w))
  | 66 => some (.ldI16Wc (fG w) (fD w) (fA w) (fClass w) (fOff8 w))
  | 67 => some (.ldN16Wc (fG w) (fD w) (fA w) (fClass w) (fOff8 w))
  | 68 => some (.ldI32Wc (fG w) (fD w) (fA w) (fClass w) (fOff8 w))
  | 69 => some (.ldN32Wc (fG w) (fD w) (fA w) (fClass w) (fOff8 w))
  | 70 => some (.ldN64Wc (fG w) (fD w) (fA w) (fClass w) (fOff8 w))
  | 72 => some (.stN8 (fG w) (fD w) (fA w) (fClass w) (fOff8 w))
  | 73 => some (.stN16 (fG w) (fD w) (fA w) (fClass w) (fOff8 w))
  | 74 => some (.stN32 (fG w) (fD w) (fA w) (fClass w) (fOff8 w))
  | 75 => some (.stN64 (fG w) (fD w) (fA w) (fClass w) (fOff8 w))
  | 76 => some (.stN8Set (fG w) (fD w) (fA w) (fClass w) (fOff8 w))
  | 77 => some (.stN16Set (fG w) (fD w) (fA w) (fClass w) (fOff8 w))
  | 78 => some (.stN32Set (fG w) (fD w) (fA w) (fClass w) (fOff8 w))
  | 79 => some (.stN64Set (fG w) (fD w) (fA w) (fClass w) (fOff8 w))
  | 80 => some (.stN8Clr (fG w) (fD w) (fA w) (fClass w) (fOff8 w))
  | 81 => some (.stN16Clr (fG w) (fD w) (fA w) (fClass w) (fOff8 w))
  | 82 => some (.stN32Clr (fG w) (fD w) (fA w) (fClass w) (fOff8 w))
  | 83 => some (.stN64Clr (fG w) (fD w) (fA w) (fClass w) (fOff8 w))
  | 84 => some (.aldN32 (fG w) (fD w) (fA w) (fClass w) (fOff8 w))
  | 85 => some (.aldN64 (fG w) (fD w) (fA w) (fClass w) (fOff8 w))
  | 86 => some (.astN32 (fG w) (fD w) (fA w) (fClass w) (fOff8 w))
  | 87 => some (.astN64 (fG w) (fD w) (fA w) (fClass w) (fOff8 w))
  | 88 => decodeAtomic32 w
  | 89 => decodeAtomic64 w
  | 90 => if w.extractLsb' 19 3 = 0#3 then some (.fence (fG w) (w.extractLsb' 16 3) (fImm16 w)) else none
  | 96 => decodeEngCtl w
  | 97 => decodeEngine w
  | 98 => decodeObject w
  | 99 => decodeWork w
  | 100 => decodePool w
  | 101 => decodeSystem w
  | 102 => some (.getcr (fG w) (fD w) (fA w) (fImm12 w))
  | 103 => some (.setcr (fG w) (fD w) (fA w) (fImm12 w))
  | _ => none

/-- Whether a major opcode is assigned (R158). -/
def majorAssigned (m : Nat) : Bool :=
  (1 ≤ m && m ≤ 11) || (16 ≤ m && m ≤ 24) || (32 ≤ m && m ≤ 35) || (48 ≤ m && m ≤ 54) || (56 ≤ m && m ≤ 62) || (64 ≤ m && m ≤ 70) || (72 ≤ m && m ≤ 90) || (96 ≤ m && m ≤ 103)

/-! ### Engine command words -/

/-- WAIT (R164); an extension word's MARK stands in the same place (R165). -/
def cWait (w : W64) : BitVec 8 := w.extractLsb' 56 8
/-- SIGNAL (R164). -/
def cSignal (w : W64) : BitVec 8 := w.extractLsb' 48 8
/-- OPCODE (R164). -/
def cOp (w : W64) : BitVec 8 := w.extractLsb' 40 8
/-- PAYLOAD of an extension word (R165). -/
def xPayload (w : W64) : BitVec 56 := w.extractLsb' 0 56

/-- Format V (R167). -/
def vFields (w : W64) : VWord :=
  { wait := cWait w, signal := cSignal w, vd := w.extractLsb' 33 7, va := w.extractLsb' 26 7
    vb := w.extractLsb' 19 7, vc := w.extractLsb' 12 7, mask := w.extractLsb' 9 3, stage := w.extractLsb' 6 3
    round := w.extractLsb' 3 3, mod := w.extractLsb' 0 3 }

/-- Format E (R168). -/
def eFields (w : W64) : EWord :=
  { wait := cWait w, signal := cSignal w, args := w.extractLsb' 10 30, cls := w.extractLsb' 6 4
    round := w.extractLsb' 3 3, mod := w.extractLsb' 0 3 }

/-- The maps of R169 and R170: L0 and L1 share one. -/
inductive EngineMap where
  | v | l | w | m | c
  deriving DecidableEq, Repr

/-- A V command from its opcode (R169). Opcode 0x80 is `rcinit.e` when mod is 1 (R249). -/
noncomputable def decodeV (op : Nat) (f : VWord) : Option Instr :=
  match op with
  | 1 => some (.vSetrm f)
  | 2 => some (.vEnop f)
  | 3 => some (.vtos f)
  | 4 => some (.vloop f)
  | 5 => some (.vdefer f)
  | 6 => some (.vdrain f)
  | 7 => some (.vsel f)
  | 8 => some (.vmand f)
  | 9 => some (.vmor f)
  | 10 => some (.vmxor f)
  | 11 => some (.vmandn f)
  | 12 => some (.vmnot f)
  | 13 => some (.vmpop f)
  | 16 => some (.vaddI32 f)
  | 17 => some (.vsubI32 f)
  | 18 => some (.vmulI32 f)
  | 19 => some (.vmulhI32 f)
  | 20 => some (.vmulhN32 f)
  | 21 => some (.vdivI32 f)
  | 22 => some (.vdivN32 f)
  | 23 => some (.vminI32 f)
  | 24 => some (.vmaxI32 f)
  | 25 => some (.vminN32 f)
  | 26 => some (.vmaxN32 f)
  | 27 => some (.vaddsI32 f)
  | 32 => some (.vand f)
  | 33 => some (.vor f)
  | 34 => some (.vxor f)
  | 35 => some (.vandn f)
  | 36 => some (.vsll f)
  | 37 => some (.vsrl f)
  | 38 => some (.vsra f)
  | 39 => some (.vclz f)
  | 40 => some (.vclmul f)
  | 41 => some (.vclmulh f)
  | 48 => some (.vaddF32 f)
  | 49 => some (.vsubF32 f)
  | 50 => some (.vmulF32 f)
  | 51 => some (.vfmaF32 f)
  | 52 => some (.vfmsF32 f)
  | 53 => some (.vdivF32 f)
  | 54 => some (.vsqrtF32 f)
  | 55 => some (.vminF32 f)
  | 56 => some (.vmaxF32 f)
  | 57 => some (.vabsF32 f)
  | 58 => some (.vnegF32 f)
  | 59 => some (.vexp2F32 f)
  | 64 => some (.vcmpEqI32 f)
  | 65 => some (.vcmpLtI32 f)
  | 66 => some (.vcmpLeI32 f)
  | 67 => some (.vcmpLtN32 f)
  | 68 => some (.vcmpEqF32 f)
  | 69 => some (.vcmpLtF32 f)
  | 70 => some (.vcmpLeF32 f)
  | 71 => some (.vcmpUnF32 f)
  | 80 => some (.vcvtF32I32 f)
  | 81 => some (.vcvtI32F32 f)
  | 82 => some (.vcvtF32F16 f)
  | 83 => some (.vcvtF32Bf16 f)
  | 84 => some (.vcvtF16F32 f)
  | 85 => some (.vcvtBf16F32 f)
  | 86 => some (.vnarrow f)
  | 87 => some (.vwiden f)
  | 96 => some (.vperm f)
  | 97 => some (.vslideup f)
  | 98 => some (.vslidedn f)
  | 99 => some (.vbcast f)
  | 100 => some (.vmov f)
  | 112 => some (.vredaddF32 f)
  | 113 => some (.vredaddF64 f)
  | 114 => some (.vredmaxF32 f)
  | 115 => some (.vredaddI32 f)
  | 116 => some (.vtopk f)
  | 128 => if f.mod = 1#3 then some (.rcinitE f) else some (.rcinitD f)
  | 129 => some (.rcfin f)
  | 130 => some (.rcstat f)
  | 131 => some (.rcdec f)
  | 132 => some (.rcdecm f)
  | 133 => some (.rcenc f)
  | 134 => some (.rcencm f)
  | 135 => some (.rckpt f)
  | 136 => some (.rcroll f)
  | 137 => some (.qsq f)
  | 138 => some (.qmov f)
  | 139 => some (.qadapt f)
  | 140 => some (.cdfsw f)
  | _ => none

/-- Whether a V opcode is assigned (R169). -/
def vAssigned (op : Nat) : Bool :=
  (1 ≤ op && op ≤ 7) || (8 ≤ op && op ≤ 13) || (16 ≤ op && op ≤ 27) || (32 ≤ op && op ≤ 41) || (48 ≤ op && op ≤ 59) || (64 ≤ op && op ≤ 71) || (80 ≤ op && op ≤ 87) || (96 ≤ op && op ≤ 100) || (112 ≤ op && op ≤ 116) || (128 ≤ op && op ≤ 140)

/-- The number of extension words an opcode takes (R165, R169, R170); none for an unassigned opcode. -/
def extCount (map : EngineMap) (op : Nat) : Option Nat :=
  match map with
  | .v => if vAssigned op then some 0 else none
  | .l =>
    match op with
    | 2 => some 0
    | 16 => some 3
    | 17 => some 3
    | 18 => some 3
    | 19 => some 2
    | 20 => some 1
    | 21 => some 2
    | 22 => some 3
    | _ => none
  | .w =>
    match op with
    | 1 => some 0
    | 2 => some 0
    | 16 => some 3
    | 17 => some 2
    | 18 => some 3
    | _ => none
  | .m =>
    match op with
    | 1 => some 0
    | 2 => some 0
    | 16 => some 0
    | 17 => some 0
    | 18 => some 1
    | 19 => some 2
    | 20 => some 2
    | 21 => some 0
    | _ => none
  | .c =>
    match op with
    | 1 => some 0
    | 2 => some 0
    | 16 => some 2
    | 17 => some 3
    | 18 => some 2
    | 19 => some 1
    | 20 => some 1
    | 21 => some 1
    | 22 => some 1
    | _ => none

/-- A command of the L map from its opcode and payloads (R170). -/
def decodeEL (op : Nat) (f : EWord) (x : List (BitVec 56)) : Option Instr :=
  match op, x with
  | 2, [] => some (.lEnop f)
  | 16, [x1, x2, x3] => some (.lstrm f x1 x2 x3)
  | 17, [x1, x2, x3] => some (.lgathBm f x1 x2 x3)
  | 18, [x1, x2, x3] => some (.lgathRl f x1 x2 x3)
  | 19, [x1, x2] => some (.lcbx f x1 x2)
  | 20, [x1] => some (.lcbtab f x1)
  | 21, [x1, x2] => some (.lpkld f x1 x2)
  | 22, [x1, x2, x3] => some (.lbmg f x1 x2 x3)
  | _, _ => none

/-- A command of the W map from its opcode and payloads (R170). -/
def decodeEW (op : Nat) (f : EWord) (x : List (BitVec 56)) : Option Instr :=
  match op, x with
  | 1, [] => some (.wSetrm f)
  | 2, [] => some (.wEnop f)
  | 16, [x1, x2, x3] => some (.wstrm f x1 x2 x3)
  | 17, [x1, x2] => some (.wpkst f x1 x2)
  | 18, [x1, x2, x3] => some (.wscat f x1 x2 x3)
  | _, _ => none

/-- A command of the M map from its opcode and payloads (R170). -/
def decodeEM (op : Nat) (f : EWord) (x : List (BitVec 56)) : Option Instr :=
  match op, x with
  | 1, [] => some (.mSetrm f)
  | 2, [] => some (.mEnop f)
  | 16, [] => some (.mlease f)
  | 17, [] => some (.mrel f)
  | 18, [x1] => some (.mmul f x1)
  | 19, [x1, x2] => some (.mmul2 f x1 x2)
  | 20, [x1, x2] => some (.mdrain f x1 x2)
  | 21, [] => some (.mzero f)
  | _, _ => none

/-- A command of the C map from its opcode and payloads (R170). -/
def decodeEC (op : Nat) (f : EWord) (x : List (BitVec 56)) : Option Instr :=
  match op, x with
  | 1, [] => some (.cSetrm f)
  | 2, [] => some (.cEnop f)
  | 16, [x1, x2] => some (.ccopy f x1 x2)
  | 17, [x1, x2, x3] => some (.cwin f x1 x2 x3)
  | 18, [x1, x2] => some (.cadd f x1 x2)
  | 19, [x1] => some (.caccld f x1)
  | 20, [x1] => some (.caccst f x1)
  | 21, [x1] => some (.cexp f x1)
  | 22, [x1] => some (.carr f x1)
  | _, _ => none

/-- A whole entry: its command word and its extension words (R164, R165). None where check 1 or 2 of R171
fails, or where the number of extension words is not the opcode's. -/
noncomputable def decodeEntry (map : EngineMap) (w : W64) (xs : List W64) : Option Instr :=
  if cWait w = 0xFF#8 ∨ xs.any (fun x => cWait x != 0xFF#8) then none
  else
    match map with
    | .v => if xs.isEmpty then decodeV (cOp w).toNat (vFields w) else none
    | .l => decodeEL (cOp w).toNat (eFields w) (xs.map xPayload)
    | .w => decodeEW (cOp w).toNat (eFields w) (xs.map xPayload)
    | .m => decodeEM (cOp w).toNat (eFields w) (xs.map xPayload)
    | .c => decodeEC (cOp w).toNat (eFields w) (xs.map xPayload)

/-! ### The encoder -/

/-- Format RR (R156). -/
def rrWord (g : BitVec 3) (major : BitVec 7) (d a b : BitVec 5) (fn : BitVec 7) : BitVec 32 := g ++ major ++ d ++ a ++ b ++ fn
/-- Format RI (R156). -/
def riWord (g : BitVec 3) (major : BitVec 7) (d a : BitVec 5) (imm : BitVec 12) : BitVec 32 := g ++ major ++ d ++ a ++ imm
/-- Format LI (R156). -/
def liWord (g : BitVec 3) (major : BitVec 7) (d : BitVec 5) (imm : BitVec 17) : BitVec 32 := g ++ major ++ d ++ imm
/-- Format MEM (R156). -/
def memWord (g : BitVec 3) (major : BitVec 7) (d a : BitVec 5) (cls : BitVec 4) (off : BitVec 8) : BitVec 32 := g ++ major ++ d ++ a ++ cls ++ off
/-- Format BR (R156). -/
def brWord (g : BitVec 3) (major : BitVec 7) (off : BitVec 22) : BitVec 32 := g ++ major ++ off
/-- Format SYS (R156). -/
def sysWord (g : BitVec 3) (major : BitVec 7) (fn6 : BitVec 6) (imm : BitVec 16) : BitVec 32 := g ++ major ++ fn6 ++ imm
/-- A predicate number in a register field (R157). -/
def predField (p : BitVec 3) : BitVec 5 := 0#2 ++ p
/-- The word of a V command (R164, R167). -/
def vWord (op : BitVec 8) (f : VWord) : W64 := f.wait ++ f.signal ++ op ++ f.vd ++ f.va ++ f.vb ++ f.vc ++ f.mask ++ f.stage ++ f.round ++ f.mod
/-- The command word of a format E command (R164, R168). -/
def eWord (op : BitVec 8) (f : EWord) : W64 := f.wait ++ f.signal ++ op ++ f.args ++ f.cls ++ f.round ++ f.mod
/-- An extension word (R165). -/
def extWord (p : BitVec 56) : W64 := 0xFF#8 ++ p

/-- What an instruction is encoded as: one scalar word, the words of one entry of an engine, or nothing (a step of
a unit has no word). -/
inductive Encoded where
  | scalar (w : BitVec 32)
  | entry (map : EngineMap) (ws : List W64)
  | noWord
  deriving DecidableEq, Repr

/-- The words of an instruction (R156 to R170). Fields that the instruction does not read are zero. -/
def encode : Instr → Encoded
  | .add g d a b => .scalar (rrWord g 0x01#7 d a b 0x00#7)
  | .sub g d a b => .scalar (rrWord g 0x01#7 d a b 0x01#7)
  | .and g d a b => .scalar (rrWord g 0x01#7 d a b 0x02#7)
  | .or g d a b => .scalar (rrWord g 0x01#7 d a b 0x03#7)
  | .xor g d a b => .scalar (rrWord g 0x01#7 d a b 0x04#7)
  | .andn g d a b => .scalar (rrWord g 0x01#7 d a b 0x05#7)
  | .sll g d a b => .scalar (rrWord g 0x01#7 d a b 0x06#7)
  | .srl g d a b => .scalar (rrWord g 0x01#7 d a b 0x07#7)
  | .sra g d a b => .scalar (rrWord g 0x01#7 d a b 0x08#7)
  | .mul g d a b => .scalar (rrWord g 0x01#7 d a b 0x09#7)
  | .mulh g d a b => .scalar (rrWord g 0x01#7 d a b 0x0A#7)
  | .mulhn g d a b => .scalar (rrWord g 0x01#7 d a b 0x0B#7)
  | .div g d a b => .scalar (rrWord g 0x01#7 d a b 0x0C#7)
  | .divn g d a b => .scalar (rrWord g 0x01#7 d a b 0x0D#7)
  | .rem g d a b => .scalar (rrWord g 0x01#7 d a b 0x0E#7)
  | .remn g d a b => .scalar (rrWord g 0x01#7 d a b 0x0F#7)
  | .min g d a b => .scalar (rrWord g 0x01#7 d a b 0x10#7)
  | .max g d a b => .scalar (rrWord g 0x01#7 d a b 0x11#7)
  | .minn g d a b => .scalar (rrWord g 0x01#7 d a b 0x12#7)
  | .maxn g d a b => .scalar (rrWord g 0x01#7 d a b 0x13#7)
  | .clz g d a => .scalar (rrWord g 0x01#7 d a 0#5 0x14#7)
  | .ctz g d a => .scalar (rrWord g 0x01#7 d a 0#5 0x15#7)
  | .popc g d a => .scalar (rrWord g 0x01#7 d a 0#5 0x16#7)
  | .clmul g d a b => .scalar (rrWord g 0x01#7 d a b 0x17#7)
  | .clmulh g d a b => .scalar (rrWord g 0x01#7 d a b 0x18#7)
  | .sh1add g d a b => .scalar (rrWord g 0x01#7 d a b 0x19#7)
  | .sh2add g d a b => .scalar (rrWord g 0x01#7 d a b 0x1A#7)
  | .sh3add g d a b => .scalar (rrWord g 0x01#7 d a b 0x1B#7)
  | .sh4add g d a b => .scalar (rrWord g 0x01#7 d a b 0x1C#7)
  | .addi g d a i => .scalar (riWord g 0x02#7 d a i)
  | .muli g d a i => .scalar (riWord g 0x03#7 d a i)
  | .andi g d a i => .scalar (riWord g 0x04#7 d a i)
  | .ori g d a i => .scalar (riWord g 0x05#7 d a i)
  | .xori g d a i => .scalar (riWord g 0x06#7 d a i)
  | .slli g d a i => .scalar (riWord g 0x07#7 d a (0#6 ++ i))
  | .srli g d a i => .scalar (riWord g 0x08#7 d a (0#6 ++ i))
  | .srai g d a i => .scalar (riWord g 0x09#7 d a (0#6 ++ i))
  | .li g d i => .scalar (liWord g 0x0A#7 d i)
  | .lsi g d i => .scalar (liWord g 0x0B#7 d i)
  | .cmpEq g p a b => .scalar (rrWord g 0x10#7 (predField p) a b 0x00#7)
  | .cmpNe g p a b => .scalar (rrWord g 0x10#7 (predField p) a b 0x01#7)
  | .cmpLt g p a b => .scalar (rrWord g 0x10#7 (predField p) a b 0x02#7)
  | .cmpGe g p a b => .scalar (rrWord g 0x10#7 (predField p) a b 0x03#7)
  | .cmpLtn g p a b => .scalar (rrWord g 0x10#7 (predField p) a b 0x04#7)
  | .cmpGen g p a b => .scalar (rrWord g 0x10#7 (predField p) a b 0x05#7)
  | .cmpiEq g p a i => .scalar (riWord g 0x11#7 (predField p) a i)
  | .cmpiNe g p a i => .scalar (riWord g 0x12#7 (predField p) a i)
  | .cmpiLt g p a i => .scalar (riWord g 0x13#7 (predField p) a i)
  | .cmpiGe g p a i => .scalar (riWord g 0x14#7 (predField p) a i)
  | .cmpiLtn g p a i => .scalar (riWord g 0x15#7 (predField p) a i)
  | .cmpiGen g p a i => .scalar (riWord g 0x16#7 (predField p) a i)
  | .pand g p q r => .scalar (rrWord g 0x17#7 (predField p) (predField q) (predField r) 0x00#7)
  | .por g p q r => .scalar (rrWord g 0x17#7 (predField p) (predField q) (predField r) 0x01#7)
  | .pxor g p q r => .scalar (rrWord g 0x17#7 (predField p) (predField q) (predField r) 0x02#7)
  | .pandn g p q r => .scalar (rrWord g 0x17#7 (predField p) (predField q) (predField r) 0x03#7)
  | .pnot g p q => .scalar (rrWord g 0x17#7 (predField p) (predField q) 0#5 0x04#7)
  | .pset g p a => .scalar (rrWord g 0x17#7 (predField p) a 0#5 0x05#7)
  | .pget g d q => .scalar (rrWord g 0x17#7 d (predField q) 0#5 0x06#7)
  | .sel g d a b p => .scalar (rrWord g 0x18#7 d a b (0#4 ++ p))
  | .br g o => .scalar (brWord g 0x20#7 o)
  | .call g o => .scalar (brWord g 0x21#7 o)
  | .jr g a => .scalar (rrWord g 0x22#7 0#5 a 0#5 0x00#7)
  | .callr g a => .scalar (rrWord g 0x22#7 0#5 a 0#5 0x01#7)
  | .ret g => .scalar (rrWord g 0x22#7 0#5 0#5 0#5 0x02#7)
  | .detach g => .scalar (sysWord g 0x23#7 0#6 0#16)
  | .join g p t => .scalar (sysWord g 0x23#7 1#6 (p ++ t))
  | .ldI8 g d a c o => .scalar (memWord g 0x30#7 d a c o)
  | .ldN8 g d a c o => .scalar (memWord g 0x31#7 d a c o)
  | .ldI16 g d a c o => .scalar (memWord g 0x32#7 d a c o)
  | .ldN16 g d a c o => .scalar (memWord g 0x33#7 d a c o)
  | .ldI32 g d a c o => .scalar (memWord g 0x34#7 d a c o)
  | .ldN32 g d a c o => .scalar (memWord g 0x35#7 d a c o)
  | .ldN64 g d a c o => .scalar (memWord g 0x36#7 d a c o)
  | .ldI8W g d a c o => .scalar (memWord g 0x38#7 d a c o)
  | .ldN8W g d a c o => .scalar (memWord g 0x39#7 d a c o)
  | .ldI16W g d a c o => .scalar (memWord g 0x3A#7 d a c o)
  | .ldN16W g d a c o => .scalar (memWord g 0x3B#7 d a c o)
  | .ldI32W g d a c o => .scalar (memWord g 0x3C#7 d a c o)
  | .ldN32W g d a c o => .scalar (memWord g 0x3D#7 d a c o)
  | .ldN64W g d a c o => .scalar (memWord g 0x3E#7 d a c o)
  | .ldI8Wc g d a c o => .scalar (memWord g 0x40#7 d a c o)
  | .ldN8Wc g d a c o => .scalar (memWord g 0x41#7 d a c o)
  | .ldI16Wc g d a c o => .scalar (memWord g 0x42#7 d a c o)
  | .ldN16Wc g d a c o => .scalar (memWord g 0x43#7 d a c o)
  | .ldI32Wc g d a c o => .scalar (memWord g 0x44#7 d a c o)
  | .ldN32Wc g d a c o => .scalar (memWord g 0x45#7 d a c o)
  | .ldN64Wc g d a c o => .scalar (memWord g 0x46#7 d a c o)
  | .stN8 g d a c o => .scalar (memWord g 0x48#7 d a c o)
  | .stN16 g d a c o => .scalar (memWord g 0x49#7 d a c o)
  | .stN32 g d a c o => .scalar (memWord g 0x4A#7 d a c o)
  | .stN64 g d a c o => .scalar (memWord g 0x4B#7 d a c o)
  | .stN8Set g d a c o => .scalar (memWord g 0x4C#7 d a c o)
  | .stN16Set g d a c o => .scalar (memWord g 0x4D#7 d a c o)
  | .stN32Set g d a c o => .scalar (memWord g 0x4E#7 d a c o)
  | .stN64Set g d a c o => .scalar (memWord g 0x4F#7 d a c o)
  | .stN8Clr g d a c o => .scalar (memWord g 0x50#7 d a c o)
  | .stN16Clr g d a c o => .scalar (memWord g 0x51#7 d a c o)
  | .stN32Clr g d a c o => .scalar (memWord g 0x52#7 d a c o)
  | .stN64Clr g d a c o => .scalar (memWord g 0x53#7 d a c o)
  | .aldN32 g d a c o => .scalar (memWord g 0x54#7 d a c o)
  | .aldN64 g d a c o => .scalar (memWord g 0x55#7 d a c o)
  | .astN32 g d a c o => .scalar (memWord g 0x56#7 d a c o)
  | .astN64 g d a c o => .scalar (memWord g 0x57#7 d a c o)
  | .aaddN32 g d a b c => .scalar (rrWord g 0x58#7 d a b (c ++ 0#3))
  | .aswpN32 g d a b c => .scalar (rrWord g 0x58#7 d a b (c ++ 1#3))
  | .amaxI32 g d a b c => .scalar (rrWord g 0x58#7 d a b (c ++ 2#3))
  | .amaxN32 g d a b c => .scalar (rrWord g 0x58#7 d a b (c ++ 3#3))
  | .aminI32 g d a b c => .scalar (rrWord g 0x58#7 d a b (c ++ 4#3))
  | .aminN32 g d a b c => .scalar (rrWord g 0x58#7 d a b (c ++ 5#3))
  | .aorN32 g d a b c => .scalar (rrWord g 0x58#7 d a b (c ++ 6#3))
  | .acasN32 g d a b c => .scalar (rrWord g 0x58#7 d a b (c ++ 7#3))
  | .aaddN64 g d a b c => .scalar (rrWord g 0x59#7 d a b (c ++ 0#3))
  | .aswpN64 g d a b c => .scalar (rrWord g 0x59#7 d a b (c ++ 1#3))
  | .amaxI64 g d a b c => .scalar (rrWord g 0x59#7 d a b (c ++ 2#3))
  | .amaxN64 g d a b c => .scalar (rrWord g 0x59#7 d a b (c ++ 3#3))
  | .aminI64 g d a b c => .scalar (rrWord g 0x59#7 d a b (c ++ 4#3))
  | .aminN64 g d a b c => .scalar (rrWord g 0x59#7 d a b (c ++ 5#3))
  | .aorN64 g d a b c => .scalar (rrWord g 0x59#7 d a b (c ++ 6#3))
  | .acasN64 g d a b c => .scalar (rrWord g 0x59#7 d a b (c ++ 7#3))
  | .fence g s m => .scalar (sysWord g 0x5A#7 (0#3 ++ s) m)
  | .fork g e => .scalar (sysWord g 0x60#7 0#6 (0#9 ++ e ++ 0#1))
  | .rdv g e => .scalar (sysWord g 0x60#7 1#6 (0#9 ++ e ++ 0#1))
  | .tksig g e => .scalar (sysWord g 0x60#7 2#6 (0#13 ++ e))
  | .tkwait g e => .scalar (sysWord g 0x60#7 3#6 (0#13 ++ e))
  | .enq g e b => .scalar (rrWord g 0x61#7 e 0#5 b 0x00#7)
  | .ksend g k b => .scalar (rrWord g 0x61#7 (0#1 ++ k) 0#5 b 0x01#7)
  | .ipop g d a => .scalar (rrWord g 0x61#7 d a 0#5 0x02#7)
  | .hset g d a b => .scalar (rrWord g 0x62#7 d a b 0x00#7)
  | .hfree g a => .scalar (rrWord g 0x62#7 0#5 a 0#5 0x01#7)
  | .hget g d a b => .scalar (rrWord g 0x62#7 d a b 0x02#7)
  | .bexp g a b => .scalar (rrWord g 0x62#7 0#5 a b 0x03#7)
  | .barr g d a => .scalar (rrWord g 0x62#7 d a 0#5 0x04#7)
  | .bwait g a b => .scalar (rrWord g 0x62#7 0#5 a b 0x05#7)
  | .bmset g d a b => .scalar (rrWord g 0x62#7 d a b 0x06#7)
  | .bmcopy g d a b => .scalar (rrWord g 0x62#7 d a b 0x07#7)
  | .dwait g d p => .scalar (rrWord g 0x63#7 d 0#5 0#5 (p ++ 0#4))
  | .trig g => .scalar (rrWord g 0x63#7 0#5 0#5 0#5 0x01#7)
  | .rtnew g d a b => .scalar (rrWord g 0x63#7 d a b 0x02#7)
  | .rtclaim g d a p => .scalar (rrWord g 0x63#7 d a 0#5 (p ++ 3#4))
  | .done g a => .scalar (rrWord g 0x63#7 0#5 a 0#5 0x04#7)
  | .tmsg g a b => .scalar (rrWord g 0x63#7 0#5 a b 0x05#7)
  | .trecv g d a p => .scalar (rrWord g 0x63#7 d a 0#5 (p ++ 6#4))
  | .pput g d a b => .scalar (rrWord g 0x64#7 d a b 0x00#7)
  | .pputTry g d a b p => .scalar (rrWord g 0x64#7 d a b (p ++ 1#4))
  | .ptake g d a b p => .scalar (rrWord g 0x64#7 d a b (p ++ 2#4))
  | .ppeek g d a b p => .scalar (rrWord g 0x64#7 d a b (p ++ 3#4))
  | .exit g => .scalar (sysWord g 0x65#7 0#6 0#16)
  | .hbeat g => .scalar (sysWord g 0x65#7 1#6 0#16)
  | .swtrap g n => .scalar (sysWord g 0x65#7 2#6 n)
  | .eret g => .scalar (sysWord g 0x65#7 3#6 0#16)
  | .getcr g d a i => .scalar (riWord g 0x66#7 d a i)
  | .setcr g d a i => .scalar (riWord g 0x67#7 d a i)
  | .parkWake _ => .noWord
  | .parkTimeout _ => .noWord
  | .vSetrm w => .entry .v [vWord 0x01#8 w]
  | .vEnop w => .entry .v [vWord 0x02#8 w]
  | .vtos w => .entry .v [vWord 0x03#8 w]
  | .vloop w => .entry .v [vWord 0x04#8 w]
  | .vdefer w => .entry .v [vWord 0x05#8 w]
  | .vdrain w => .entry .v [vWord 0x06#8 w]
  | .vsel w => .entry .v [vWord 0x07#8 w]
  | .vmand w => .entry .v [vWord 0x08#8 w]
  | .vmor w => .entry .v [vWord 0x09#8 w]
  | .vmxor w => .entry .v [vWord 0x0A#8 w]
  | .vmandn w => .entry .v [vWord 0x0B#8 w]
  | .vmnot w => .entry .v [vWord 0x0C#8 w]
  | .vmpop w => .entry .v [vWord 0x0D#8 w]
  | .vaddI32 w => .entry .v [vWord 0x10#8 w]
  | .vsubI32 w => .entry .v [vWord 0x11#8 w]
  | .vmulI32 w => .entry .v [vWord 0x12#8 w]
  | .vmulhI32 w => .entry .v [vWord 0x13#8 w]
  | .vmulhN32 w => .entry .v [vWord 0x14#8 w]
  | .vdivI32 w => .entry .v [vWord 0x15#8 w]
  | .vdivN32 w => .entry .v [vWord 0x16#8 w]
  | .vminI32 w => .entry .v [vWord 0x17#8 w]
  | .vmaxI32 w => .entry .v [vWord 0x18#8 w]
  | .vminN32 w => .entry .v [vWord 0x19#8 w]
  | .vmaxN32 w => .entry .v [vWord 0x1A#8 w]
  | .vaddsI32 w => .entry .v [vWord 0x1B#8 w]
  | .vand w => .entry .v [vWord 0x20#8 w]
  | .vor w => .entry .v [vWord 0x21#8 w]
  | .vxor w => .entry .v [vWord 0x22#8 w]
  | .vandn w => .entry .v [vWord 0x23#8 w]
  | .vsll w => .entry .v [vWord 0x24#8 w]
  | .vsrl w => .entry .v [vWord 0x25#8 w]
  | .vsra w => .entry .v [vWord 0x26#8 w]
  | .vclz w => .entry .v [vWord 0x27#8 w]
  | .vclmul w => .entry .v [vWord 0x28#8 w]
  | .vclmulh w => .entry .v [vWord 0x29#8 w]
  | .vaddF32 w => .entry .v [vWord 0x30#8 w]
  | .vsubF32 w => .entry .v [vWord 0x31#8 w]
  | .vmulF32 w => .entry .v [vWord 0x32#8 w]
  | .vfmaF32 w => .entry .v [vWord 0x33#8 w]
  | .vfmsF32 w => .entry .v [vWord 0x34#8 w]
  | .vdivF32 w => .entry .v [vWord 0x35#8 w]
  | .vsqrtF32 w => .entry .v [vWord 0x36#8 w]
  | .vminF32 w => .entry .v [vWord 0x37#8 w]
  | .vmaxF32 w => .entry .v [vWord 0x38#8 w]
  | .vabsF32 w => .entry .v [vWord 0x39#8 w]
  | .vnegF32 w => .entry .v [vWord 0x3A#8 w]
  | .vexp2F32 w => .entry .v [vWord 0x3B#8 w]
  | .vcmpEqI32 w => .entry .v [vWord 0x40#8 w]
  | .vcmpLtI32 w => .entry .v [vWord 0x41#8 w]
  | .vcmpLeI32 w => .entry .v [vWord 0x42#8 w]
  | .vcmpLtN32 w => .entry .v [vWord 0x43#8 w]
  | .vcmpEqF32 w => .entry .v [vWord 0x44#8 w]
  | .vcmpLtF32 w => .entry .v [vWord 0x45#8 w]
  | .vcmpLeF32 w => .entry .v [vWord 0x46#8 w]
  | .vcmpUnF32 w => .entry .v [vWord 0x47#8 w]
  | .vcvtF32I32 w => .entry .v [vWord 0x50#8 w]
  | .vcvtI32F32 w => .entry .v [vWord 0x51#8 w]
  | .vcvtF32F16 w => .entry .v [vWord 0x52#8 w]
  | .vcvtF32Bf16 w => .entry .v [vWord 0x53#8 w]
  | .vcvtF16F32 w => .entry .v [vWord 0x54#8 w]
  | .vcvtBf16F32 w => .entry .v [vWord 0x55#8 w]
  | .vnarrow w => .entry .v [vWord 0x56#8 w]
  | .vwiden w => .entry .v [vWord 0x57#8 w]
  | .vperm w => .entry .v [vWord 0x60#8 w]
  | .vslideup w => .entry .v [vWord 0x61#8 w]
  | .vslidedn w => .entry .v [vWord 0x62#8 w]
  | .vbcast w => .entry .v [vWord 0x63#8 w]
  | .vmov w => .entry .v [vWord 0x64#8 w]
  | .vredaddF32 w => .entry .v [vWord 0x70#8 w]
  | .vredaddF64 w => .entry .v [vWord 0x71#8 w]
  | .vredmaxF32 w => .entry .v [vWord 0x72#8 w]
  | .vredaddI32 w => .entry .v [vWord 0x73#8 w]
  | .vtopk w => .entry .v [vWord 0x74#8 w]
  | .rcinitD w => .entry .v [vWord 0x80#8 w]
  | .rcinitE w => .entry .v [vWord 0x80#8 w]
  | .rcfin w => .entry .v [vWord 0x81#8 w]
  | .rcstat w => .entry .v [vWord 0x82#8 w]
  | .rcdec w => .entry .v [vWord 0x83#8 w]
  | .rcdecm w => .entry .v [vWord 0x84#8 w]
  | .rcenc w => .entry .v [vWord 0x85#8 w]
  | .rcencm w => .entry .v [vWord 0x86#8 w]
  | .rckpt w => .entry .v [vWord 0x87#8 w]
  | .rcroll w => .entry .v [vWord 0x88#8 w]
  | .qsq w => .entry .v [vWord 0x89#8 w]
  | .qmov w => .entry .v [vWord 0x8A#8 w]
  | .qadapt w => .entry .v [vWord 0x8B#8 w]
  | .cdfsw w => .entry .v [vWord 0x8C#8 w]
  | .cdfBankSwitch _ _ => .noWord
  | .resultLanding _ => .noWord
  | .tokenPush _ _ _ => .noWord
  | .inboxPush _ => .noWord
  | .networkCompletionToken _ => .noWord
  | .messageArrival _ => .noWord
  | .lEnop w => .entry .l [eWord 0x02#8 w]
  | .lstrm w x1 x2 x3 => .entry .l [eWord 0x10#8 w, extWord x1, extWord x2, extWord x3]
  | .lgathBm w x1 x2 x3 => .entry .l [eWord 0x11#8 w, extWord x1, extWord x2, extWord x3]
  | .lgathRl w x1 x2 x3 => .entry .l [eWord 0x12#8 w, extWord x1, extWord x2, extWord x3]
  | .lcbx w x1 x2 => .entry .l [eWord 0x13#8 w, extWord x1, extWord x2]
  | .lcbtab w x1 => .entry .l [eWord 0x14#8 w, extWord x1]
  | .xtBankFull _ _ => .noWord
  | .lpkld w x1 x2 => .entry .l [eWord 0x15#8 w, extWord x1, extWord x2]
  | .lbmg w x1 x2 x3 => .entry .l [eWord 0x16#8 w, extWord x1, extWord x2, extWord x3]
  | .dqElementPush _ _ => .noWord
  | .wSetrm w => .entry .w [eWord 0x01#8 w]
  | .wEnop w => .entry .w [eWord 0x02#8 w]
  | .wstrm w x1 x2 x3 => .entry .w [eWord 0x10#8 w, extWord x1, extWord x2, extWord x3]
  | .wpkst w x1 x2 => .entry .w [eWord 0x11#8 w, extWord x1, extWord x2]
  | .wscat w x1 x2 x3 => .entry .w [eWord 0x12#8 w, extWord x1, extWord x2, extWord x3]
  | .sqElementPop _ => .noWord
  | .mSetrm w => .entry .m [eWord 0x01#8 w]
  | .mEnop w => .entry .m [eWord 0x02#8 w]
  | .mlease w => .entry .m [eWord 0x10#8 w]
  | .mrel w => .entry .m [eWord 0x11#8 w]
  | .mmul w x1 => .entry .m [eWord 0x12#8 w, extWord x1]
  | .mmul2 w x1 x2 => .entry .m [eWord 0x13#8 w, extWord x1, extWord x2]
  | .mdrain w x1 x2 => .entry .m [eWord 0x14#8 w, extWord x1, extWord x2]
  | .mzero w => .entry .m [eWord 0x15#8 w]
  | .leaseGrant _ => .noWord
  | .mmulBlockWrite _ => .noWord
  | .mmulDrainStart _ => .noWord
  | .mdrainComplete _ => .noWord
  | .operandFetchArrival _ => .noWord
  | .cSetrm w => .entry .c [eWord 0x01#8 w]
  | .cEnop w => .entry .c [eWord 0x02#8 w]
  | .ccopy w x1 x2 => .entry .c [eWord 0x10#8 w, extWord x1, extWord x2]
  | .cwin w x1 x2 x3 => .entry .c [eWord 0x11#8 w, extWord x1, extWord x2, extWord x3]
  | .cadd w x1 x2 => .entry .c [eWord 0x12#8 w, extWord x1, extWord x2]
  | .caccld w x1 => .entry .c [eWord 0x13#8 w, extWord x1]
  | .caccst w x1 => .entry .c [eWord 0x14#8 w, extWord x1]
  | .cexp w x1 => .entry .c [eWord 0x15#8 w, extWord x1]
  | .carr w x1 => .entry .c [eWord 0x16#8 w, extWord x1]
  | .copyChannelStart _ _ => .noWord
  | .copyBytesLand _ _ => .noWord
  | .copyComplete _ _ => .noWord
  | .accRowWrite _ _ => .noWord
  | .frontEndMulticast _ => .noWord
  | .voteResolve _ => .noWord
  | .joinTimeout _ => .noWord
  | .frontEndRestart _ => .noWord
  | .fetchLineArrival _ _ => .noWord
  | .poolPutArrival _ => .noWord
  | .insertCounted _ => .noWord
  | .poolSnapshot _ => .noWord
  | .snapshotArrival _ => .noWord
  | .takeDecide _ _ => .noWord
  | .takeForwardArrival _ => .noWord
  | .takePromotion _ _ => .noWord
  | .forcedRoundServe _ => .noWord
  | .migrationTransfer _ => .noWord
  | .poolResultReturn _ => .noWord
  | .translationWalkDone _ => .noWord
  | .faultRecordWrite _ => .noWord
  | .fqAckRetry _ _ => .noWord
  | .fqAckSkip _ _ => .noWord
  | .fqAckKill _ _ => .noWord
  | .trInv _ => .noWord
  | .trInvComplete => .noWord
  | .mirNone _ => .noWord
  | .freeze _ => .noWord
  | .save _ => .noWord
  | .saveWrite _ => .noWord
  | .imgout _ => .noWord
  | .imgin _ _ => .noWord
  | .load _ _ => .noWord
  | .resume _ => .noWord
  | .discard _ => .noWord
  | .mirReserved _ _ => .noWord
  | .cpGo _ _ => .noWord
  | .streamStart _ _ => .noWord
  | .pktEnd _ _ => .noWord
  | .pktLaunch _ _ _ => .noWord
  | .pktLaunchi _ _ _ _ => .noWord
  | .pktXfer _ _ _ _ _ => .noWord
  | .pktLoop _ _ => .noWord
  | .pktLoopi _ _ _ => .noWord
  | .pktEndloop _ _ => .noWord
  | .pktSkipif _ _ _ _ => .noWord
  | .pktWait _ _ => .noWord
  | .entryIssue _ => .noWord
  | .strandStart _ => .noWord
  | .priorityAgeing _ => .noWord
  | .xferCopyStart _ => .noWord
  | .xferResident _ => .noWord
  | .kernelRetire _ => .noWord
  | .tagStateArrival _ => .noWord
  | .cmdResume _ _ => .noWord
  | .throttleWindow _ => .noWord
  | .watchdogIntervalEnd _ => .noWord
  | .correctableError _ => .noWord
  | .uncorrectableError _ _ => .noWord
  | .stateLost _ _ => .noWord
  | .fatalError _ _ => .noWord
  | .dlvDescWrite _ _ => .noWord
  | .deliveryTurn _ => .noWord
  | .repetitionTrap _ => .noWord
  | .sysPartWrite _ => .noWord
  | .tsuiqCopy _ _ _ _ _ => .noWord
  | .tsuiqCopyComplete _ => .noWord
  | .pcieBar2Write _ _ _ => .noWord
  | .powerGood => .noWord
  | .bootStageTimeout => .noWord
  | .sysReadyWrite _ => .noWord
  | .updateWrite _ _ _ => .noWord
  | .sensorSample _ _ _ => .noWord
  | .eventLogTick => .noWord
  | .windowRegisterWrite _ _ => .noWord
  | .contextCreate _ => .noWord
  | .poolAllocate _ _ => .noWord
  | .poolFree _ => .noWord
  | .scalarWordNotInstruction _ => .noWord
  | .engineWordNotCommand _ => .noWord
  | .takeArrival _ => .noWord
  | .putStopArrival _ _ => .noWord
  | .errorFreezeEnd _ => .noWord
  | .systemWriterWrite _ _ _ _ => .noWord
  | .bootStageDone => .noWord
  | .powerDown => .noWord
  | .tsuiqLinkLost _ => .noWord

/-- Decoding of what the encoder gives. -/
noncomputable def decodeEncoded : Encoded → Option Instr
  | .scalar w => decodeScalar w
  | .entry map (w :: xs) => decodeEntry map w xs
  | .entry _ [] => none
  | .noWord => none

/-- The instruction the decoder reads from a word numbered as the opcode table numbers it: 32 bits are a scalar
word, 64 bits a command word of V; the table gives no other row a word. -/
noncomputable def decodeTableWord (nbits w : Nat) : Option Instr :=
  if nbits = 32 then decodeScalar (BitVec.ofNat 32 w)
  else if nbits = 64 then decodeEntry .v (BitVec.ofNat 64 w) []
  else none

end Sys2Proof
end

