-- ==== Sys2Proof/Machine/State.lean ====
section
/-! DEFINITION. The state of the Igura as plain data: everything the manual gives the machine, and State.reset.
Register files, queues and tables are sparse maps (SMap); what an absent key stands for is said at each field. -/
namespace Sys2Proof.Machine

/-! ### Orderings and the race detector (R106, R112 to R114) -/

/-- One entry of a unit's race table (R113): a writer, the highest interval acquired, the scope. -/
structure REnt where
  unit : Nat
  ivl : W32
  scope : Nat
  /-- The interval and scope at which the writer has acquired its own accesses, where it has passed that on (R124; log entry 16). -/
  own : Option (W32 × Nat)
  deriving DecidableEq, Repr

/-- A release under R106 as the acquirer will see it: the releasing unit, its interval and its table then. -/
structure Rel where
  unit : Nat
  ivl : W32
  tab : List REnt
  deriving DecidableEq, Repr

/-- A release made by a fence or carried by an atomic write, with the fence's scope (R113). -/
structure FenceRel where
  rel : Rel
  scope : Nat
  deriving DecidableEq, Repr

/-- Race state of one unit (R112, R113). The table lists the entry acquired longest ago first. -/
structure RaceUnit where
  ivl : W32
  evicted : Bool
  tab : List REnt
  /-- The pulse of the latest acquire, and how many of the table's newest entries it has touched: they count by identifier (R113). -/
  touched : Nat × Nat
  /-- By class, while a write of any class is unreleased: the interval of the earliest write not yet released in that class, if there is
  one, and that of the latest write (R106, log entry 16). -/
  unrel : SMap (Option W32 × W32)
  /-- By class: the latest fence that named it (R113). -/
  fences : SMap FenceRel
  /-- By class: releases that atomic reads have observed and no fence has yet acquired (R113). -/
  seen : SMap (List FenceRel)
  deriving DecidableEq, Repr

/-- The shadow record of one 64-byte sector (R114); an absent record is empty (R392). -/
structure Shadow where
  writer : Nat
  ivl : W32
  scope : Nat
  deriving DecidableEq, Repr

/-! ### Times (R26, R351) -/

/-- A time, or the moment it ends: cycles of the core or the domain, and pulses of what leaves the domain for device memory
(R351). -/
structure Lat where
  dom : Nat
  far : Nat
  deriving DecidableEq, Repr

/-! ### The scalar sequencer (R172 to R182) -/

/-- What S waits for, beside the instruction at its pc. -/
inductive SWait where
  | idle                                -- issues when its interlocks allow
  | stalled                             -- the instruction at the pc has not issued and is tried each cycle (R174)
  | held (seq : Nat)                    -- trapped or suspended: waits for an acknowledgement of that record (R363)
  | reporting                           -- trapped or suspended: its record is not yet written (R362)
  | walk                                -- waits for a translation walk (R358)
  | pool (kind d b p : Nat)          -- a pool instruction under way: its operation and result fields (R154, R201)
  | park (sector deadline : Nat)        -- parked by a spin (R182)
  | join (x : Nat)                      -- parked at a join at x (R133)
  | vote                                -- issued a voting point whose vote is open (R129)
  | bar (pa phase : Nat)                -- a bwait outstanding on the barrier at pa: the phase it names (R79, R81)
  | passed                              -- a bwait that a completion of its barrier has released (R79)
  deriving DecidableEq, Repr

/-- What the spin rule remembers of the last taken backward branch (R182). -/
structure SpinRec where
  valid : Bool
  branch : W64
  target : W64
  /-- The load of the iteration that ended at that branch. -/
  prev : Option (W64 × W64)
  /-- The loads issued since. -/
  loads : List (W64 × W64)
  /-- Another access or instruction of R182's list was issued since. -/
  other : Bool
  regs : SMap W64
  preds : BitVec 8
  deriving DecidableEq, Repr

/-- A scalar result that lands later (R174, R154, R329): register 0 to 31, or 32 + predicate. -/
structure PendWrite where
  reg : Nat
  value : W64
  due : Nat
  deriving DecidableEq, Repr

/-- S of one core. -/
structure SUnit where
  /-- s1 to s31; absent reads zero; s0 is never listed (R172). -/
  x : SMap W64
  /-- p0 to p7 as bits; bit 0 always reads true (R172). -/
  p : BitVec 8
  pc : W64
  /-- Return-address store, oldest first, at most 16 (R180). -/
  ras : List W64
  rspill : W64
  epc : W64
  cause : W64
  inh : Bool
  /-- Cycle from which a register (32 + n: predicate n) can be read (R24, R208). -/
  ready : SMap Nat
  /-- Pulse from which it can be read, where device memory gives it (R351). -/
  far : SMap Nat
  /-- Earliest cycle of the next issue (R208), and the cycle by which every access of S has performed (R188, R204). -/
  next : Nat
  performed : Nat
  /-- The same in pulses, for what S has asked of device memory (R351). -/
  farNext : Nat
  farDone : Nat
  wait : SWait
  pend : List PendWrite
  spin : SpinRec
  triggered : Bool
  /-- Steps done of a bmcopy or an exit (R174). -/
  steps : Nat
  /-- What a bmcopy under way has read first (R195): NSEQ, NBEAM and NLBLK of the map, and its cycles. -/
  bm : List Nat
  /-- The status that the strand's first dwait has given, which a later one repeats (R196). -/
  dwaited : Option Nat
  /-- The word being executed, for reports (R362). -/
  word : BitVec 32
  deriving DecidableEq, Repr

/-! ### Prism, the core's side (R125 to R137) -/

/-- A decoded-instruction buffer entry: address, word, and the cause of a failed fetch plus 256 times its INFO (0: none). -/
structure IEnt where
  addr : W64
  word : BitVec 32
  fault : Nat
  deriving DecidableEq, Repr

/-- A 64-byte line of a private instruction buffer: its address / 64 and its 16 words (R131). -/
structure PLine where
  line : Nat
  words : List (BitVec 32)
  deriving DecidableEq, Repr

/-- What a bound core contributes to a vote (R129, R130, R133). -/
structure Vote where
  next : W64
  leaves : Bool
  join : Bool
  guard : Bool
  pd : BitVec 3
  t : BitVec 13
  /-- The park that follows the vote, when the branch is a spin (R182): monitor and deadline. -/
  park : Option (Nat × Nat)
  /-- The cycle before which the instruction's own time holds the next one (R208). -/
  hold : Nat := 0
  deriving DecidableEq, Repr

/-- Binding state of a core. -/
structure PrismCore where
  bound : Bool
  parked : Bool
  roster : Bool
  joinPd : BitVec 3
  ibuf : List IEnt
  pbuf : List PLine
  /-- The front end's count of join resolutions when this core detached (R134). -/
  mark : Nat
  vote : Option Vote
  /-- A line request waits for the fetch port (R127), and the cause and INFO of a fetch that failed (0: none). -/
  req : Option Nat
  failed : Nat
  deriving DecidableEq, Repr

/-! ### Queues (R18 to R23, R30) -/

/-- A token or completion token: its release and the cycle from which it can be popped (R33). -/
structure Tok where
  rel : Rel
  ready : Nat
  deriving DecidableEq, Repr

/-- An inbox entry (R23). -/
structure InEnt where
  value : W64
  tag : Nat
  ready : Nat
  deriving DecidableEq, Repr

/-- A message (R30). -/
structure Msg where
  payload : W64
  sender : W64
  rel : Rel
  deriving DecidableEq, Repr

/-- A data-queue element (R22) and the cycle from which it can be popped. -/
structure DqElem where
  lanes : Lanes
  ready : Nat
  deriving DecidableEq, Repr

/-- What a store-queue element carries: 64 lanes with their enables (R209), or two narrowed blocks (R221). -/
inductive SqData where
  | plain (lanes : Lanes) (en : W64)
  | block (m : Nat) (mant : List Int) (e0 e1 : BitVec 8) (out : List (Nat × W32))
  deriving DecidableEq, Repr

/-- A store-queue slot: reserved until its data land (R22). -/
structure SqSlot where
  id : Nat
  data : Option SqData
  rel : Rel
  deriving DecidableEq, Repr

/-- All queues of a core. -/
structure Queues where
  /-- Token queue from engine j to engine k at 8 j + k (R19). -/
  tok : SMap (List Tok)
  /-- Unpopped completion tokens and arrivals in incomplete phases (R20). -/
  net : List Tok
  arrivals : List Rel
  inbox : List InEnt
  msgs : List Msg
  dq : SMap (List DqElem)
  sq : SMap (List SqSlot)
  deriving DecidableEq, Repr

/-! ### Rings and engines (R13 to R18) -/

/-- What enq leaves with a word: its release, and the cycle from which it can issue (R33, R106). -/
structure RWord where
  rel : Rel
  ready : Nat
  deriving DecidableEq, Repr

/-- A ring (R13, R16). Head and tail count words modulo twice the size. -/
structure Ring where
  declared : Bool
  base : Nat
  size : Nat
  isStatic : Bool
  head : Nat
  tail : Nat
  forked : Bool
  /-- Earliest issue after fork, and the release of the fork (R16, R106). -/
  start : Nat
  forkRel : Option Rel
  words : SMap RWord
  /-- Words of the loader's image that the head has yet to pass, where the ring is static (R38; log entry 12). -/
  image : Nat
  deriving DecidableEq, Repr

/-- Why an engine issues nothing further. -/
inductive Stop where
  | run
  | reporting                 -- trapped or suspended, its record not yet written
  | held (seq : Nat)          -- waits for an acknowledgement
  | walk                      -- waits for a translation walk
  deriving DecidableEq, Repr

/-- A token push the engine holds (R18): target engine and release. -/
structure HeldTok where
  dest : Nat
  rel : Rel
  deriving DecidableEq, Repr

/-- The state every engine has. -/
structure Eng where
  ring : Ring
  stop : Stop
  held : List HeldTok
  /-- The command word of the entry that trapped or runs (R362). -/
  word : W64
  /-- Earliest issue of the next entry. -/
  next : Nat
  deriving DecidableEq, Repr

/-- An access entry under way (R261, R262): the entry, its next element's cycle, its progress register's ELEM and
META, and what the command keeps beside them. -/
structure Run where
  ins : Instr
  next : Nat
  /-- The pulse in which its first element comes from device memory (R351). -/
  far : Nat
  elem : Nat
  metaPos : Nat
  /-- Values the command read at issue or carries along, as its own meaning lists them. -/
  vals : List Nat
  mode : Nat
  /-- Elements W has popped and not yet written, oldest first: when each performs, and its data (R311, R326). -/
  pend : List (Lat × List SqData)
  /-- Granules of core memory, by offset / 16, that the entry has written and may yet write again: their full-empty bits are
  set when the last byte has landed (R76). -/
  part : List Nat
  deriving DecidableEq, Repr

/-! ### V and the coder (R209 to R257) -/

/-- One checkpoint slot of a coder lane (R255). -/
structure CkSlot where
  /-- VALID: clearing it leaves the rest as it is (R251). -/
  valid : Bool
  mode : Nat
  low : BitVec 33
  range : W32
  cache : Byte
  hasCache : Bool
  pending : W32
  pos : W32
  count : W32
  base : W32
  cap : W32
  flags : BitVec 4
  deriving DecidableEq, Repr

/-- One coder lane (R236). LOW and CODE share `low`. Flags: bit 0 ENDED, 1 UNDERRUN, 2 OVERRUN, 3 PCLAMP. -/
structure CoderLane where
  mode : Nat
  low : BitVec 33
  range : W32
  cache : Byte
  hasCache : Bool
  pending : W32
  pos : W32
  fin : W32
  count : W32
  base : W32
  cap : W32
  flags : BitVec 4
  slot0 : CkSlot
  slot1 : CkSlot
  deriving DecidableEq, Repr

/-- One bank of a CDF slot (R245). -/
structure CdfBank where
  n : Nat
  version : Nat
  c : List Nat
  deriving DecidableEq, Repr

/-- A CDF slot: two banks, the active one, and the cycle of a pending switch (R246). -/
structure CdfSlot where
  bank0 : CdfBank
  bank1 : CdfBank
  active : Nat
  switch : Option Nat
  deriving DecidableEq, Repr

/-- What an exposed-latency result writes when it lands (R214). -/
inductive Target where
  | vreg (r : Nat) (lanes : Lanes) (en : W64)
  | slot (q id : Nat) (data : SqData)
  | mask (n : Nat) (value : W64)
  | qreg (r : Nat) (lanes : Lanes) (en : W64)
  | res (value : W64)
  | inbox (value : W64)
  | kreg (n : Nat) (value : W32)
  /-- New lane states; the writes of the coder in their order, a byte or a header of 16 (R252); whether an rcinit made them. -/
  | coder (lanes : SMap CoderLane) (writes : List (Nat × List Byte)) (wrote : Bool)
  | flags (bits : BitVec 4) (lanes : W64)
  /-- A decision on lanes whose ENDED was already set (R247). -/
  | ended (lanes : W64)
  deriving DecidableEq, Repr

/-- The landing of one entry (R214): its cycle, its results, and the signals it then pushes. -/
structure Landing where
  due : Nat
  targets : List Target
  signal : BitVec 8
  rel : Rel
  isEntry : Bool
  word : W64
  /-- The entry's ring address for reports. -/
  addr : Nat
  /-- The signals of the `vloop` whose last instance this is: it completes with it (R232). -/
  loop : Option (BitVec 8) := none
  /-- A write of its has trapped: it waits for the acknowledgement (R370). -/
  held : Bool := false
  /-- A watermark has held it up: it stands before what falls due in the same cycle (R90, R214). -/
  waited : Bool := false
  deriving DecidableEq, Repr

/-- A deferral record (R228). -/
structure DefRec where
  lane : Nat
  a : W32
  b : W32
  c : W32
  deriving DecidableEq, Repr

/-- V of one core. -/
structure VUnit where
  /-- v0 to v63, physical; absent reads zero. -/
  v : SMap Lanes
  /-- m1 to m7; absent reads false (R211). -/
  m : SMap W64
  k : SMap W32
  /-- q0 to q15; absent reads zero (R240). -/
  q : SMap Lanes
  res : W64
  loop : W32
  iter : W64
  iterJ : W32
  /-- The signals of the running `vloop` (R232). -/
  loopSignal : BitVec 8
  landings : List Landing
  /-- Earliest next issue. -/
  next : Nat
  /-- Inbox pushes held by a full inbox, with the signals that wait for them (R23, R225). -/
  push : List (Option InEnt × BitVec 8)
  defer : SMap (List DefRec)
  coder : SMap CoderLane
  cdf : SMap CdfSlot
  slotId : Nat
  deriving DecidableEq, Repr

/-- An expansion bank (R267). -/
structure XtBank where
  full : Bool
  blk : Nat
  format : Nat
  nent : Nat
  entries : List W32
  /-- The core's cycle in which FULL was last cleared (R307). -/
  clearedAt : Nat
  deriving DecidableEq, Repr

/-! ### Descriptors and M (R85 to R88, R280 to R297) -/

/-- A tile descriptor slot (R85) with its in-flight count (R87). -/
structure Desc where
  valid : Bool
  readOnly : Bool
  gen : Nat
  format : Nat
  stride : Nat
  cols : Nat
  rows : Nat
  ebase : W64
  base : W64
  inflight : Nat
  deriving DecidableEq, Repr

/-- An M array command in progress (R291). -/
structure MCmd where
  ins : Instr
  word : W64
  /-- Ring address of its first word, for reports. -/
  addr : W64
  signal : BitVec 8
  /-- KROW, WROW and DMAX of its progress record. -/
  krow : Nat
  wrow : Nat
  dmax : W32
  /-- The slots it names and the descriptors it latched: the A operands, then B; or the output. -/
  descs : List (Nat × Desc)
  mode : Nat
  /-- The cycle its schedule counts from: issue or resume; late fetches move it (R288). -/
  start : Nat
  /-- The block, row or row group that its schedule counts from (R291). -/
  block0 : Nat
  /-- One more than the block whose operands have been fetched, and their exponents and packed mantissas by row. -/
  fetched : Nat
  blk : List (Nat × Nat)
  /-- An access that has not arrived holds the array (R288). -/
  late : Bool
  /-- When a drain whose rows have all been stored can make its maximum and complete: a cycle of the domain and a pulse (R297). -/
  tail : Lat
  /-- Its number: a ring address can name two commands in progress. -/
  id : Nat
  deriving DecidableEq, Repr

/-- A row that a drain has read and that has yet to be stored: when, in a cycle of the domain and a pulse, what and where (R292, R297). -/
structure DrainRow where
  due : Lat
  va : Nat
  n : Nat
  v : Nat
  cls : Nat
  ctx : Nat
  /-- Ring address and word of its command, for reports. -/
  addr : W64
  word : W64
  /-- Its store has failed, and is tried again once M goes on. -/
  bad : Bool
  /-- The number of its command, and the kernel entry of its strand (R345). -/
  id : Nat
  kern : Nat
  deriving DecidableEq, Repr

/-- M of one core. -/
structure MUnit where
  used : Nat
  grant : Nat
  dvalid : Bool
  desig : Nat
  held : Bool
  /-- The saturated age of a lease that has ended, for M.LEASE (R285). -/
  age : Nat
  /-- A request to the arbiter is waiting; and the cycle a grant completes. -/
  request : Bool
  granted : Option Nat
  /-- An mlease waits for its grant: its signals. -/
  leasing : Option (BitVec 8)
  /-- The commands in progress, oldest first. -/
  cmds : List MCmd
  /-- They have stopped, and resume under a new lease (R290, R291). -/
  halted : Bool
  /-- Rows of drains on their way to memory, oldest first. -/
  stores : List DrainRow
  deriving DecidableEq, Repr

/-! ### The core (R8 to R10, R321, R324) -/

/-- Mirror state of a core (R324). -/
inductive MirState where
  | idle | running | frozen | saved
  deriving DecidableEq, Repr

/-- The Mirror registers of a core, and the last SAVE (R324, R332). -/
structure Mirror where
  st : MirState
  cmd : Nat
  ctx : Nat
  err : Nat
  busy : Bool
  fcy : W32
  area : W64
  img : W64
  /-- A SAVE under way: the cycle it finishes. -/
  saving : Option Nat
  /-- Commands that strands' `setcr` have written, and their CTX, oldest first: they take effect at the next cycle boundary (R325). -/
  posted : List (Nat × Nat)
  /-- Area and context of the last SAVE. -/
  savedAt : Option (W64 × Nat)
  deriving DecidableEq, Repr

/-- The watchdog's state of a strand (R352, R354). -/
structure Watch where
  noprog : Nat
  prog : Bool
  waiting : Bool
  started : Bool
  pos : Nat
  parks : Nat
  /-- Sector and value of the last park (R353). -/
  last : Option (Nat × W64)
  /-- Instructions since a park do not count until another value is seen. -/
  tainted : Bool
  /-- The address of the load that the last park monitors (R353). -/
  lastVa : Nat
  deriving DecidableEq, Repr

/-- One core. -/
structure Core where
  mir : Mirror
  ctx : Nat
  /-- The kernel entry (sequence number) whose strand runs here (R343). -/
  kern : Nat
  stage : Nat
  lclus : Nat
  lcount : Nat
  cur : Nat
  /-- Core cycles that have run: the clock of landings (R26). -/
  cy : Nat
  su : SUnit
  pr : PrismCore
  q : Queues
  /-- Engines 1 to 6 (R12). -/
  eng : SMap Eng
  v : VUnit
  /-- The entries under way of L0, L1 and W (1, 2, 3). -/
  run : SMap Run
  /-- ELEM and META of a part-done entry of L0, L1 or W that an area gives and that has yet to start again (R261, R332). -/
  prog : SMap (Nat × Nat)
  xt : SMap XtBank
  m : MUnit
  /-- Rounding registers of V, W, M and C (4, 3, 5, 6); absent is 1 (R63). -/
  rm : SMap Nat
  /-- Race state by agent (R112); absent is the state after a strand starts. -/
  race : SMap RaceUnit
  wd : Watch
  /-- The strand's range interval (R27). -/
  rint : Nat × Nat
  /-- Copy entries dispatched and not complete (R16, R204). -/
  copies : Nat
  /-- A launch holds the core: its strand has not yet begun (R330). -/
  launched : Bool
  /-- The first cause reported for the strand (R348); 0 none. -/
  firstCause : Nat
  deriving DecidableEq, Repr

/-! ### The cluster -/

/-- A copy entry queued or running in a channel (R272). -/
structure CopyEnt where
  ins : Instr
  word : W64
  /-- Ring address of its first word, for reports. -/
  addr : W64
  /-- Dispatching core index, whether its strand still runs there, and whether the system copy port dispatched it. -/
  core : Nat
  live : Bool
  port : Bool
  ctx : Nat
  mode : Nat
  signal : BitVec 8
  /-- Barrier bound in dispatch order (R274). -/
  bar : Option Nat
  start : Nat
  /-- What its enqueuing released, acquired when the entry starts (R106). -/
  rel : Rel
  /-- The kernel entry of the strand that dispatched it (R345). -/
  kern : Nat
  deriving DecidableEq, Repr

/-- A copy channel (R89, R272). -/
structure Chan where
  queue : List CopyEnt
  active : Bool
  wm : W64
  /-- End of the watermark range, and the bytes or rows landed. -/
  last : W64
  done : Nat
  /-- Bytes landed in this cycle that the bound barrier has not yet counted (R79). -/
  landed : Nat
  /-- The running entry has started, and the cycle of its next landing. -/
  running : Bool
  next : Nat
  /-- The pulse in which the first bytes come from device memory (R351). -/
  far : Nat
  bound : Option Nat
  stop : Stop
  /-- Units that stalled on the watermark (R106): core, agent, and the bytes they wait for. -/
  waiters : List (Nat × Nat × Nat × Nat)
  /-- Fingerprint of the running entry (R91): sum, sum of squares, NaNs, max, elements; none once its record is written. -/
  fp : List Nat
  deriving DecidableEq, Repr

/-- The front end of a cluster (R125 to R135). -/
structure FrontEnd where
  pc : W64
  idle : Bool
  ctx : Nat
  /-- A voting point has been multicast: its address, and the cycle its vote resolves once all have issued. -/
  voting : Option W64
  resolveAt : Option Nat
  /-- A join waits for missing cores: address and the cycle its timeout ends (none: no limit). -/
  joining : Option (W64 × Option Nat)
  /-- Join resolutions, newest first, at most 16, and their count since power-up (R134). -/
  log : List W64
  count : Nat
  req : Option Nat
  /-- The line the front end holds. -/
  line : Option PLine
  failed : Nat
  deriving DecidableEq, Repr

/-- A fetch accepted by the port: party (0 front end, 1 + core), the line's address / 64, its physical address / 64,
the cycle and the pulse it arrives (R127, R351), and whether an invalidation under way names its translation (R359). -/
structure Fetch where
  party : Nat
  line : Nat
  phys : Nat
  due : Nat
  far : Nat
  inv : Bool
  deriving DecidableEq, Repr

/-- One translation held by a table (R358). -/
structure Tlb where
  ctx : Nat
  va : Nat
  size : Nat
  pa : Nat
  w : Bool
  x : Bool
  relax : Bool
  deriving DecidableEq, Repr

/-- A range task of the cluster (R27, R198). -/
structure RangeTask where
  grain : Nat
  free : List (Nat × Nat)
  conts : List (W64 × W64 × List Rel)
  deriving DecidableEq, Repr

/-- A matrix array's ownership (R284): the holding core, and the cycle after its last access (R283). -/
structure ArrayOwn where
  core : Option Nat
  freeAt : Nat
  deriving DecidableEq, Repr

/-- The releases that a barrier object has collected (R79, R106): of the phase under way and of the last completed. -/
structure BarRel where
  now : List Rel
  done : List Rel
  deriving DecidableEq, Repr

/-- A step scheduled for a nominal pulse, or for a cycle of a domain. -/
structure Sched where
  due : Nat
  ins : Instr
  deriving DecidableEq, Repr

/-- A completed phase of the barrier network whose tokens are on their way (R20, R33): the launch, the cycle in which they are pushed,
the members, what the arrivals released. -/
structure NetPhase where
  kern : Nat
  due : Nat
  members : List Nat
  rel : Rel
  deriving DecidableEq, Repr

/-- One cluster. -/
structure Cluster where
  /-- Domain cycles that have run (R5). -/
  dcy : Nat
  /-- Swallow count now and from the next window, and pulses of error freeze left (R350, R366). -/
  swallow : Nat
  swallowNext : Nat
  freeze : Nat
  corrected : Nat
  fe : FrontEnd
  lastParty : Nat
  fetches : List Fetch
  /-- Lines the cluster cache holds: physical address / 64 and their bytes (R84, R104). -/
  cache : SMap (List Byte)
  ctlb : SMap (List Tlb)
  tlb : List Tlb
  /-- Phases of its barrier networks that have completed and have not yet pushed their tokens, oldest first (R20). -/
  phases : List NetPhase
  /-- Steps that belong to a cycle of the domain: messages between its cores (R33, R350). -/
  timed : List Sched
  bars : SMap BarRel
  task : RangeTask
  lastGrant : Nat
  /-- Banks whose M port, and whose copy port, has been taken in the current cycle (R278). -/
  mbanks : List Nat
  cbanks : List Nat
  mx0 : ArrayOwn
  mx1 : ArrayOwn
  chans : SMap Chan
  race : SMap RaceUnit
  /-- The system copy port: entry words, state, cause (R335). -/
  ent : SMap W64
  cpState : Nat
  cpCause : Nat
  /-- The port's entry waits for room in its channel's queue: the context of its GO, and the entry's words as GO found them. -/
  cpHeld : Option (Nat × List W64)
  deriving DecidableEq, Repr

/-! ### Contexts, pools -/

/-- What belongs to a context in a core that another context now holds (R63, R172, R236, R240, R245). -/
structure CtxCore where
  rm : SMap Nat
  coder : SMap CoderLane
  q : SMap Lanes
  cdf : SMap CdfSlot
  deriving DecidableEq, Repr

/-- One context (R319 to R321). -/
structure Ctx where
  live : Bool
  tven : Bool
  rtrap : Bool
  priv : Bool
  rctrap : BitVec 4
  racelog : W64
  tvec : W64
  floor : Nat
  limit : Nat
  interval : Nat
  wake : W64
  ptroot : W64
  slots : SMap Desc
  /-- Dies on which the watchdog has paused the context's stream and scoreboard entries (R354). -/
  paused : List Nat
  /-- The watchdog has fired: the context is pre-empted at the next cycle boundary (R354). -/
  preempting : Bool
  /-- The die whose command processor runs it, and so its partition (R380). -/
  die : Nat
  /-- By core: what belongs to the context there while a strand of another one has the core (R172; log entry 27). -/
  cores : SMap CtxCore
  deriving DecidableEq, Repr

/-- A pool entry (R142), with its hidden fields and the release it carries (R153). -/
structure PEnt where
  key : W32
  tie : W32
  payload : W64
  o : Nat
  n : Nat
  rel : Rel
  deriving DecidableEq, Repr

/-- An entry in an arrival buffer: when its insert takes effect, and the shard it migrates from (R144, R151). -/
structure Arr where
  ent : PEnt
  id : Nat
  from_ : Option Nat
  deriving DecidableEq, Repr

/-- A take in a shard's queue (R147, R149). -/
structure Take where
  id : Nat
  core : Nat
  unit : Nat
  home : Nat
  /-- The pulse of its issue. -/
  issued : Nat
  at_ : Nat
  promoted : Bool
  /-- A decision has kept it: it is decided again only in the pulse that `retry` names, in which a fresh snapshot has come (R147). -/
  kept : Bool
  retry : Nat
  /-- The emptiness round under way (R150): shards whose further snapshot has arrived empty. -/
  empty : Option (List Nat)
  /-- A condition of the emptiness round has failed. -/
  broken : Bool
  /-- BOUND and LIMIT as the take found them at its shard (R141). -/
  bound : Nat
  limit : Nat
  deriving DecidableEq, Repr

/-- A snapshot (R145): the listed entries and the number of inserts that had taken effect. -/
structure Snap where
  ents : List PEnt
  effected : Nat
  deriving DecidableEq, Repr

/-- One shard of a pool (R139, R144 to R151). -/
structure Shard where
  /-- The address of its heap area, in the context that owns the pool (R139). -/
  area : Nat
  /-- The pool unit's access to the heap has met a fault and waits for an acknowledgement. -/
  held : Bool
  /-- The entry that the unit could not read back from the heap, since its line holds poison (R367): it decides no take until then. -/
  refused : Option PEnt
  /-- The present entries in rank order: the unit holds the first 64, the heap the rest (R139). -/
  ents : List PEnt
  arr : List Arr
  loc : List Take
  fwd : List Take
  accepted : Nat
  effected : Nat
  /-- By remote shard: inserts counted, the latest snapshot. -/
  counted : SMap Nat
  snaps : SMap Snap
  /-- Takes served in this and the last four snapshot periods, newest first (R151). -/
  served : List Nat
  stopped : Bool
  decided : Nat
  deriving DecidableEq, Repr

/-- A forced round (R149): its number and the pulse in which it began, its shard and take, and the fresh snapshots still awaited. -/
structure Round where
  id : Nat
  began : Nat
  shard : Nat
  take : Nat
  await : List Nat
  sent : List Nat
  fetching : Bool
  deriving DecidableEq, Repr

/-- One pool (R139, R141). -/
structure Pool where
  owner : Option Nat
  bound : Nat
  starve : Nat
  cap : Nat
  norebal : Bool
  shards : SMap Shard
  round : Option Round
  deriving DecidableEq, Repr

/-! ### Dies: faults, command processor, delivery -/

/-- A fault record's fields (R362) and the unit that stops for it (core or cluster index, agent). -/
structure FRec where
  seq : Nat
  core : Nat
  unit : Nat
  cause : Nat
  ctx : Nat
  kind : Nat
  addr : W64
  info : W64
  cycle : W32
  /-- Core index and engine (0 S to 6 C), or 16 + channel with a cluster index, of the stopped unit. -/
  owner : Nat
  agent : Nat
  /-- The trap came after its entry completed (R363). -/
  after : Bool
  /-- The number of the command of M that stopped; 0 for none (R363). -/
  entry : Nat := 0
  deriving DecidableEq, Repr

/-- The command processor of a die (R337 to R339). -/
structure CmdProc where
  start : W64
  status : W64
  tagTab : W64
  ctx : Nat
  running : Bool
  off : Nat
  last : Nat
  loops : List (Nat × Nat)
  due : Nat
  state : Nat
  err : Nat
  /-- Depth of the loops it passes over without executing them (R339); 0 executes. -/
  skipping : Nat
  /-- Tags this stream has named: sequence number of the latest packet, whether a transfer, and the cycle from which a
  WAIT on it can complete once it has retired (R338, R355). -/
  named : SMap (Nat × Bool × Nat)
  deriving DecidableEq, Repr

/-- A write that a command processor has yet to make, since its translation has failed (R357): context, address, bytes, value. -/
structure Owed where
  ctx : Nat
  va : Nat
  n : Nat
  v : Nat
  deriving DecidableEq, Repr

/-- One compute die. -/
structure Die where
  fqBase : W64
  dropped : Nat
  badack : Bool
  tail : Nat
  head : Nat
  lost : Bool
  seq : Nat
  /-- Fault interrupts raised: one for each advance of TAIL (R362). -/
  raised : Nat
  /-- Records to be written, and records that await an acknowledgement (R362, R363). -/
  queue : List FRec
  waiting : List FRec
  cp : CmdProc
  /-- The writes that its command processor owes, oldest first, and whether it waits for the acknowledgement of the first one's record
  (R357, R361). -/
  owed : List Owed
  owing : Bool
  /-- A read of poison has stopped the command processor until its record is acknowledged (R363, R367; log entry 65). -/
  cpHeld : Bool
  /-- The translation tables of the command processor and of the pool unit (R358). -/
  tlb : List Tlb
  ptlb : List Tlb
  /-- Pages that a walk for the command processor has found unmapped: context, address / 65536, and the pulse (R357). -/
  unmapped : List (Nat × Nat × Nat)
  dlv : W64
  dlvPos : Nat
  /-- The delivery unit has met a fault and waits for an acknowledgement. -/
  dlvHeld : Bool
  /-- MSI-X messages of the delivery unit's own vector (R382). -/
  dlvRaised : Nat
  /-- By slot: the last 128 delivered tokens, newest first (R377). -/
  hist : SMap (List W32)
  sensors : SMap W64
  /-- Consecutive samples above 105 degrees (R387). -/
  hot : SMap Nat
  /-- By sensor: the pulse for which its latest reading came (R387). -/
  fresh : SMap Nat
  deriving DecidableEq, Repr

/-- A unit that waits for a walk (R357, R362): the address it needs, and whether to write or to fetch. Units: core index and agent;
cluster and 256 + channel, or 512 for the front end; core and 513 for a private fetch; die and 514 for the command processor, or
768 + pool for the pool unit. -/
structure Waiter where
  who : Nat × Nat
  va : Nat
  write : Bool
  fetch : Bool
  deriving DecidableEq, Repr

/-- A walk under way (R357, R358): its page, and who waits for it. The cluster is 160 + die for a command processor and 164 + die for
a pool unit. -/
structure Walk where
  id : Nat
  ctx : Nat
  va : Nat
  /-- The first address and the bytes of the page that the walk is for. -/
  page : Nat × Nat
  die : Nat
  cluster : Nat
  due : Nat
  parties : List Waiter
  deriving DecidableEq, Repr

/-- A kernel entry of the scoreboards (R341, R343, R346). -/
structure Kernel where
  tag : Nat
  ctx : Nat
  die : Nat
  dies : List Nat
  cfirst : Nat
  clast : Nat
  level : Nat
  eff : Nat
  since : Nat
  entry : W64
  args : List W64
  rsbase : W64
  rsstride : Nat
  stages : List Nat
  prods : List Nat
  /-- Declared streams: tag, and sequence number of its latest transfer before the launch (R344). -/
  strs : List (Nat × Nat)
  tagTab : W64
  issued : Bool
  placeable : Option Nat
  /-- Strands that have not triggered, and that have not ended. -/
  toTrigger : Nat
  running : Nat
  retireAt : Option Nat
  tagState : Nat
  /-- A declared stream's transfer does not reach every cluster of the kernel, which is then never READY (R344). -/
  uncovered : Bool
  /-- What its ended strands release when it retires (R345). -/
  rels : List Rel
  deriving DecidableEq, Repr

/-- A transfer entry (R344). -/
structure Xfer where
  tag : Nat
  ctx : Nat
  die : Nat
  dies : List Nat
  cfirst : Nat
  clast : Nat
  src : W64
  off : Nat
  len : Nat
  copying : Bool
  resident : Bool
  /-- Its copy has met a fault and waits for an acknowledgement. -/
  held : Bool
  due : Nat
  deriving DecidableEq, Repr

/-- One entry of the scoreboards, by package-wide sequence number (R343). -/
inductive Entry where
  | kernel (k : Kernel)
  | xfer (x : Xfer)
  deriving DecidableEq, Repr

/-- What is on its way between units. -/
inductive Flight where
  | msg (core : Nat) (m : Msg)
  | put (pool shard core : Nat) (ent : PEnt) (mask : BitVec 16) (pd : Option (BitVec 3)) (unit : Nat)
  | count (pool frm dest id : Nat) (last : Bool)
  | snap (pool frm dest : Nat) (s : Snap) (round : Option Nat)
  | take (pool shard : Nat) (t : Take)
  | serve (pool shard : Nat) (t : Take) (frm : Nat)
  | migrate (pool frm dest : Nat) (ent : PEnt) (ins : Nat)
  | offer (pool frm dest : Nat) (ent : PEnt)
  | result (core id : Nat) (ent : Option PEnt) (ok : Bool) (trap : Nat)
  | tag (die key : Nat)
  | peek (pool shard core : Nat) (id : Nat)
  deriving DecidableEq, Repr

/-- A kernel image the loader places (R38 to R41): core memory bytes, `.stage` ranges (stage, first and last launch-relative
cluster), cluster memory bytes, rings (engine, base, words, static) and descriptors. Log entry 8. -/
structure Image where
  core : List (Nat × Byte)
  stages : List (Nat × Nat × Nat)
  cluster : List (Nat × Byte)
  rings : List (Nat × Nat × Nat × Bool)
  handles : SMap Desc
  deriving DecidableEq, Repr

/-- A slot of module flash (R384): its first 16 bytes (MAGIC, VERSION, LENGTH, zero), its public key, and the payload with the signature behind it as one
number, first byte lowest. -/
structure Slot where
  head : BitVec 128
  pk : BitVec 512
  body : Nat
  deriving DecidableEq, Repr

/-- System registers and the management subsystem (R379, R383 to R389). -/
structure Sys where
  stage : Nat
  reason : Nat
  bdie : Nat
  layer : Nat
  slot : Nat
  dump : Bool
  version : W32
  ready : Bool
  part : Nat
  power : Bool
  slotA : Slot
  slotB : Slot
  /-- The fuses: the digest of the vendor's public key, and the floor of VERSION (R384). -/
  pkh : BitVec 256
  minver : Nat
  /-- A slot whose new image has not yet been booted with success, whether the boot under way is its trial, and whether that boot has been reverted
  (R385). -/
  trial : Option Nat
  trying : Bool
  reverted : Bool
  /-- Pulse at which the stage began (its limit counts from it). -/
  began : Nat
  log : List (Nat × Nat × Nat)
  seq : Nat
  fatal : Bool
  fatalParts : List Nat
  /-- Fatal errors met since the last cycle boundary, by die and unit: they stop the pulses at the next (R371). -/
  dying : List (Nat × Nat)
  /-- Pulse of power-up; the log's seconds count from it (R388). -/
  powerAt : Nat
  /-- Tsuiq ports that stage 3 has disabled (R383). -/
  portsOff : List Nat
  deriving DecidableEq, Repr

/-- A turn in the agenda of a pulse: a unit (core index, engine number) or a step of a unit. -/
inductive Turn where
  | unit (core agent : Nat)
  | event (i : Instr)
  deriving DecidableEq, Repr

/-- Tsuiq copy under way at a port (R381). -/
structure PortCopy where
  src : Nat
  dst : Nat
  len : Nat
  tag : Nat
  /-- The pulse at which it ends. -/
  due : Nat
  deriving DecidableEq, Repr

/-- The whole machine. -/
structure State where
  /-- Nominal pulses since power-up (R336, R350). -/
  now : Nat
  agenda : List Turn
  /-- Whose turn it is: core index and engine (log entry 3). -/
  cur : Nat × Nat
  inputs : List (Nat × Instr)
  evq : List Sched
  flights : SMap Flight
  nextId : Nat
  free : Nat
  /-- Memory: device at its physical address, cluster k at 2^40 + k 2^23, core k at 2^41 + k 2^19; a byte not
  listed reads zero (log entry 1). -/
  mem : List Host.Cell
  /-- Full granules of core memory, by address / 16, with the release of the latest setter (R75, R391). -/
  full : SMap (Option Rel)
  poison : SMap Bool
  shadow : SMap Shadow
  arel : SMap FenceRel
  /-- The tiles' elements, by array, tile, row and column (R82). -/
  acc : SMap W32
  accPoison : SMap Bool
  cores : SMap Core
  clusters : SMap Cluster
  ctxs : SMap Ctx
  pools : SMap Pool
  dies : SMap Die
  walks : List Walk
  sb : SMap Entry
  /-- Transfers that have left the scoreboards before their bytes have landed (R344, R345), by sequence number. -/
  xfers : SMap Xfer
  /-- The pulse from which a WAIT on a tag of a retired entry completes (R355), by context * 65536 + tag. -/
  retired : SMap Nat
  /-- Invalidation under way: the cycle TR.STAT.BUSY clears (R359). -/
  trBusy : Option Nat
  /-- TR.INV writes that stall their writers while BUSY is set, oldest first. -/
  trWait : List W64
  ports : SMap PortCopy
  /-- By port: device memory of the package at its other end, as far as this one has written it, and the completion records
  written there, newest first: STATUS, BYTES, tag (R381). -/
  remote : SMap (List Host.Cell)
  sent : SMap (List (Nat × Nat × Nat))
  /-- What the producers of a tag released (R106, R349), by context * 65536 + tag. -/
  tagRel : SMap Rel
  images : SMap Image
  /-- What a SAVE's area has no place for, by source core, context and FCY (log entry 18). -/
  saves : SMap Core
  /-- Saved strands whose core has taken another one by LOAD, by 2^64 + the key of their SAVE (R20, R30, R334). -/
  away : SMap Core
  /-- The translation of BAR2 (R382): by function * 2^20 + offset / 65536, the physical address / 65536. -/
  bar2 : SMap Nat
  /-- What system software's `done`s that wait for room in a continuation queue name: writer and address (R28, R199). -/
  dones : List (Nat × Nat)
  sys : Sys
  deriving DecidableEq, Repr

/-! ### Reset -/

/-- A release of nobody. -/
def Rel.none : Rel := { unit := 0xFF00, ivl := 0, tab := [] }
/-- Race state after a strand starts (R113). -/
def RaceUnit.reset : RaceUnit := { ivl := 0, evicted := false, tab := [], touched := (0, 0), unrel := [], fences := [], seen := [] }
def SpinRec.reset : SpinRec := { valid := false, branch := 0, target := 0, prev := none, loads := [], other := false, regs := [], preds := 0 }
/-- S before any strand: registers zero (log entry 2). -/
def SUnit.reset : SUnit :=
  { x := [], p := 1, pc := 0, ras := [], rspill := 0, epc := 0, cause := 0, inh := false, ready := [], far := [], next := 0, performed := 0, farNext := 0, farDone := 0
    wait := .idle, pend := [], spin := SpinRec.reset, triggered := false, steps := 0, bm := [], dwaited := none, word := 0 }
/-- The binding state at reset (R128): BOUND reads 1. -/
def PrismCore.reset : PrismCore :=
  { bound := true, parked := false, roster := false, joinPd := 0, ibuf := [], pbuf := [], mark := 0, vote := none
    req := none, failed := 0 }
/-- The binding state of a core that no strand holds any longer: it is bound to nothing (R125). -/
def PrismCore.left : PrismCore := { PrismCore.reset with bound := false }
def Queues.reset : Queues := { tok := [], net := [], arrivals := [], inbox := [], msgs := [], dq := [], sq := [] }
def Ring.reset : Ring :=
  { declared := false, base := 0, size := 16, isStatic := false, head := 0, tail := 0, forked := false, start := 0
    forkRel := none, words := [], image := 0 }
def Eng.reset : Eng := { ring := Ring.reset, stop := .run, held := [], word := 0, next := 0 }
def CkSlot.reset : CkSlot :=
  { valid := false, mode := 0, low := 0, range := 0, cache := 0, hasCache := false, pending := 0, pos := 0, count := 0, base := 0, cap := 0, flags := 0 }
def CoderLane.reset : CoderLane :=
  { mode := 0, low := 0, range := 0, cache := 0, hasCache := false, pending := 0, pos := 0, fin := 0, count := 0
    base := 0, cap := 0, flags := 0, slot0 := CkSlot.reset, slot1 := CkSlot.reset }
def CdfBank.reset : CdfBank := { n := 0, version := 0, c := [] }
def CdfSlot.reset : CdfSlot := { bank0 := CdfBank.reset, bank1 := CdfBank.reset, active := 0, switch := none }
def VUnit.reset : VUnit :=
  { v := [], m := [], k := [], q := [], res := 0, loop := 0, iter := 0, iterJ := 0, loopSignal := 0
    landings := [], next := 0, push := [], defer := [], coder := [], cdf := [], slotId := 0 }
def XtBank.reset : XtBank := { full := false, blk := 0, format := 0, nent := 0, entries := [], clearedAt := 0 }
def Desc.reset : Desc :=
  { valid := false, readOnly := false, gen := 0, format := 0, stride := 0, cols := 0, rows := 0, ebase := 0, base := 0
    inflight := 0 }
def MUnit.reset : MUnit :=
  { used := 0, grant := 0, dvalid := false, desig := 0, held := false, age := 0, request := false, granted := none
    leasing := none, cmds := [], halted := false, stores := [] }
def Mirror.reset : Mirror :=
  { st := .idle, cmd := 0, ctx := 0, err := 0, busy := false, fcy := 0, area := 0, img := 0, saving := none, posted := []
    savedAt := none }
def Watch.reset : Watch :=
  { noprog := 0, prog := false, waiting := false, started := false, pos := 0, parks := 0, last := none
    tainted := false, lastVa := 0 }
def Core.reset : Core :=
  { mir := Mirror.reset, ctx := 0, kern := 0, stage := 0, lclus := 0, lcount := 0, cur := 0, cy := 0
    su := SUnit.reset, pr := PrismCore.reset, q := Queues.reset, eng := [], v := VUnit.reset, run := [], prog := [], xt := []
    m := MUnit.reset, rm := [], race := [], wd := Watch.reset, rint := (0, 0), copies := 0, launched := false
    firstCause := 0 }
def Chan.reset : Chan :=
  { queue := [], active := false, wm := 0, last := 0, done := 0, landed := 0, running := false, next := 0, far := 0, bound := none
    stop := .run, waiters := [], fp := [] }
def FrontEnd.reset : FrontEnd :=
  { pc := 0, idle := true, ctx := 0, voting := none, resolveAt := none, joining := none, log := [], count := 0
    req := none, line := none, failed := 0 }
def RangeTask.reset : RangeTask := { grain := 1, free := [], conts := [] }
def ArrayOwn.reset : ArrayOwn := { core := none, freeAt := 0 }
def Cluster.reset : Cluster :=
  { dcy := 0, swallow := 0, swallowNext := 0, freeze := 0, corrected := 0, fe := FrontEnd.reset, lastParty := 8
    fetches := [], cache := [], ctlb := [], tlb := [], phases := [], timed := [], bars := [], task := RangeTask.reset
    lastGrant := 7, mbanks := [], cbanks := [], mx0 := ArrayOwn.reset, mx1 := ArrayOwn.reset, chans := [], race := [], ent := [], cpState := 0
    cpCause := 0, cpHeld := none }
def CtxCore.reset : CtxCore := { rm := [], coder := [], q := [], cdf := [] }
/-- A context just created (R321, R352): LIMIT 16, INTERVAL 64, every other register zero. -/
def Ctx.reset : Ctx :=
  { live := false, tven := false, rtrap := false, priv := false, rctrap := 0, racelog := 0, tvec := 0, floor := 0
    limit := 16, interval := 64, wake := 0, ptroot := 0, slots := [], paused := [], preempting := false, die := 0, cores := [] }
def Shard.reset : Shard :=
  { area := 0, held := false, refused := none, ents := [], arr := [], loc := [], fwd := [], accepted := 0, effected := 0, counted := [], snaps := [], served := [0]
    stopped := false, decided := 0 }
/-- A pool's registers at reset (R141). -/
def Pool.reset : Pool :=
  { owner := none, bound := 64, starve := 4096, cap := 0, norebal := false, shards := [], round := none }
def CmdProc.reset : CmdProc :=
  { start := 0, status := 0, tagTab := 0, ctx := 0, running := false, off := 0, last := 0, loops := [], due := 0
    state := 0, err := 0, skipping := 0, named := [] }
def Die.reset : Die :=
  { fqBase := 0, dropped := 0, badack := false, tail := 0, head := 0, lost := false, seq := 0, raised := 0, queue := []
    waiting := [], cp := CmdProc.reset, owed := [], owing := false, cpHeld := false, tlb := [], ptlb := [], unmapped := [], dlv := 0, dlvPos := 0, dlvHeld := false, dlvRaised := 0, hist := [], sensors := [], hot := [], fresh := [] }
/-- An erased slot, and what a slot holds at first: free values (log entry 14). -/
def Slot.erased : Slot := { head := 0, pk := 0, body := 0 }
def Slot.factory (n : Nat) : Slot := { head := Config.flashHead n, pk := Config.flashKey n, body := Config.flashBody n }
def Sys.reset : Sys :=
  { stage := 0, reason := 0, bdie := 0, layer := 0, slot := 0, dump := false, version := 0, ready := false, part := 0
    power := false, slotA := Slot.factory 0, slotB := Slot.factory 1, pkh := Config.fusedKey, minver := 0, trial := none, trying := false, reverted := false
    began := 0, log := [], seq := 0, fatal := false, fatalParts := [], dying := [], powerAt := 0, portsOff := [] }

/-- The package at power-up, before power-good: every field at the value the manual states, or the value that the
log entries 1, 2 and 14 name. No core runs a strand; memory lists nothing. -/
def State.reset : State :=
  { now := 0, agenda := [], cur := (0, 0), inputs := [], evq := [], flights := [], nextId := 0, free := 0, mem := []
    full := [], poison := [], shadow := [], arel := [], acc := [], accPoison := [], cores := [], clusters := []
    ctxs := [], pools := [], dies := [], walks := [], sb := [], xfers := [], retired := [], trBusy := none, trWait := [], ports := [], remote := [], sent := [], tagRel := [], images := [], saves := [], away := [], bar2 := [], dones := []
    sys := Sys.reset }

/-! ### The outcomes a step can have beside a next state -/

/-- Faults of the model. The manual's own faults are state changes (handler entry R322, fault records R361), so none
of them stops the machine; this one stands for a machine whose pulses have all been stopped. -/
inductive Fault where
  /-- Raised by `step` after a fatal error of the whole package (R371): every pulse has stopped. Safe. -/
  | stopped
  deriving DecidableEq, Repr

/-- Refusals of the model. -/
inductive Refusal where
  /-- Raised by `exec` for an instruction that has no meaning yet. Safe. -/
  | notModelled (mnemonic : String)
  /-- Raised by a meaning of a unit's own step that is asked for in a state in which that unit has no such step.
  Safe: `step` asks only for steps that the state holds, and a refusal proves nothing about the machine. -/
  | notEnabled
  deriving DecidableEq, Repr

end Sys2Proof.Machine
end

