-- ==== Sys2Proof/Machine/Maps.lean ====
section
/-! DEFINITION. Sparse maps in canonical form, and the accessors of the state through which every read and write of a
core, cluster, context, pool or die goes. -/
namespace Sys2Proof.Machine

/-! ### Maps -/

/-- The value at a key, or none. -/
def mapFind {α : Type} (k : Nat) : SMap α → Option α
  | [] => none
  | (j, v) :: r => if j = k then some v else mapFind k r

/-- The value at a key, or the map's default. -/
def mapGet {α : Type} (d : α) (k : Nat) (m : SMap α) : α := (mapFind k m).getD d

/-- Writes a value at a key, keeping the keys strictly rising. -/
def mapSet {α : Type} (k : Nat) (v : α) : SMap α → SMap α
  | [] => [(k, v)]
  | (j, u) :: r => if j = k then (k, v) :: r else if k < j then (k, v) :: (j, u) :: r else (j, u) :: mapSet k v r

/-- Removes a key. -/
def mapDel {α : Type} (k : Nat) (m : SMap α) : SMap α := m.filter fun e => e.1 ≠ k

/-- Writes a value, listing nothing for the default. -/
def mapPut {α : Type} [DecidableEq α] (d : α) (k : Nat) (v : α) (m : SMap α) : SMap α :=
  if v = d then mapDel k m else mapSet k v m

/-- Applies a change to the value at a key. -/
def mapMod {α : Type} (d : α) (k : Nat) (f : α → α) (m : SMap α) : SMap α := mapSet k (f (mapGet d k m)) m

/-- Removes every key from a lower bound on, below an upper bound. -/
def mapDelRange {α : Type} (lo hi : Nat) (m : SMap α) : SMap α := m.filter fun e => e.1 < lo || hi ≤ e.1

/-- The keys of a map. -/
def mapKeys {α : Type} (m : SMap α) : List Nat := m.map (·.1)

/-- Strictly rising keys. -/
def rising : List Nat → Bool
  | [] => true
  | [_] => true
  | a :: b :: r => a < b && rising (b :: r)

/-! ### Named parts of the state -/

/-- A core by its index (R321). -/
def State.core (s : State) (c : Nat) : Core := mapGet Core.reset c s.cores
def State.setCore (s : State) (c : Nat) (k : Core) : State := { s with cores := mapSet c k s.cores }
def State.modCore (s : State) (c : Nat) (f : Core → Core) : State := s.setCore c (f (s.core c))
/-- A cluster by its index (R386). -/
def State.cluster (s : State) (k : Nat) : Cluster := mapGet Cluster.reset k s.clusters
def State.setCluster (s : State) (k : Nat) (u : Cluster) : State := { s with clusters := mapSet k u s.clusters }
def State.modCluster (s : State) (k : Nat) (f : Cluster → Cluster) : State := s.setCluster k (f (s.cluster k))
def State.ctx (s : State) (c : Nat) : Ctx := mapGet Ctx.reset c s.ctxs
def State.setCtx (s : State) (c : Nat) (x : Ctx) : State := { s with ctxs := mapSet c x s.ctxs }
def State.modCtx (s : State) (c : Nat) (f : Ctx → Ctx) : State := s.setCtx c (f (s.ctx c))
def State.pool (s : State) (p : Nat) : Pool := mapGet Pool.reset p s.pools
def State.setPool (s : State) (p : Nat) (x : Pool) : State := { s with pools := mapSet p x s.pools }
def State.modPool (s : State) (p : Nat) (f : Pool → Pool) : State := s.setPool p (f (s.pool p))
def State.die (s : State) (d : Nat) : Die := mapGet Die.reset d s.dies
def State.setDie (s : State) (d : Nat) (x : Die) : State := { s with dies := mapSet d x s.dies }
def State.modDie (s : State) (d : Nat) (f : Die → Die) : State := s.setDie d (f (s.die d))

/-- The core whose turn it is. -/
def State.me (s : State) : Core := s.core s.cur.1
def State.modMe (s : State) (f : Core → Core) : State := s.modCore s.cur.1 f
def State.modS (s : State) (c : Nat) (f : SUnit → SUnit) : State := s.modCore c fun k => { k with su := f k.su }
def State.modV (s : State) (c : Nat) (f : VUnit → VUnit) : State := s.modCore c fun k => { k with v := f k.v }
def State.modM (s : State) (c : Nat) (f : MUnit → MUnit) : State := s.modCore c fun k => { k with m := f k.m }
def State.modQ (s : State) (c : Nat) (f : Queues → Queues) : State := s.modCore c fun k => { k with q := f k.q }
def State.modPr (s : State) (c : Nat) (f : PrismCore → PrismCore) : State := s.modCore c fun k => { k with pr := f k.pr }
def State.modMir (s : State) (c : Nat) (f : Mirror → Mirror) : State := s.modCore c fun k => { k with mir := f k.mir }
def State.modWd (s : State) (c : Nat) (f : Watch → Watch) : State := s.modCore c fun k => { k with wd := f k.wd }

/-- An engine of a core by its number (R12). -/
def Core.engine (k : Core) (e : Nat) : Eng := mapGet Eng.reset e k.eng
def Core.modEng (k : Core) (e : Nat) (f : Eng → Eng) : Core := { k with eng := mapMod Eng.reset e f k.eng }
def State.modEng (s : State) (c e : Nat) (f : Eng → Eng) : State := s.modCore c fun k => k.modEng e f

/-- Coordinates of a core index (R8, R321). -/
def dieOf (c : Nat) : Nat := c / 320
def clusterOf (c : Nat) : Nat := c / 8
def laneOf (c : Nat) : Nat := c % 8
/-- The die of a cluster index. -/
def dieOfCluster (k : Nat) : Nat := k / 40

/-- The unit identifier of an agent of a core (R112); agents 4 and 6 stand for no unit of their own. -/
def unitId (c agent : Nat) : Nat := dieOf c * 16384 + (clusterOf c % 40) * 256 + laneOf c * 32 + agent
/-- The unit identifier of a copy channel (R112). -/
def chanId (k ch : Nat) : Nat := dieOfCluster k * 16384 + (k % 40) * 256 + 16 + ch
/-- A unit outside the clusters (R115). -/
def systemUnit (die agent : Nat) : Nat := die * 16384 + 63 * 256 + agent
/-- The race agent of an engine number (R12, R112): V (4) and the copy ring (6) make no accesses and have no identifier
of their own; the unused values 4 and 6 stand for them. -/
def agentOf (e : Nat) : Nat := e

/-- Die-to-die leg in cycles (R155, R372); none inside one die. In a partition of two dies they are adjacent (R380). -/
def legCy (a b : Nat) : Nat :=
  if a % 4 = b % 4 then 0 else if (a + 2) % 4 = b % 4 then 290 else 160

/-- Puts a step into the queue of scheduled steps; steps of one pulse keep the order in which they were put. -/
def schedInsert (x : Sched) : List Sched → List Sched
  | [] => [x]
  | y :: r => if x.due < y.due then x :: y :: r else y :: schedInsert x r

def State.schedule (s : State) (due : Nat) (i : Instr) : State := { s with evq := schedInsert ⟨due, i⟩ s.evq }

/-- Sends something on its way: a step of the given kind with the flight's number happens at the given pulse. -/
def State.send (s : State) (due : Nat) (kind : Nat → Instr) (f : Flight) : State :=
  { s with nextId := s.nextId + 1, flights := mapSet s.nextId f s.flights }.schedule due (kind s.nextId)

/-- Sends something on its way inside a cluster: its step happens in the given cycle of the domain. -/
def State.sendIn (s : State) (k due : Nat) (kind : Nat → Instr) (f : Flight) : State :=
  ({ s with nextId := s.nextId + 1, flights := mapSet s.nextId f s.flights } : State).modCluster k fun u =>
    { u with timed := schedInsert ⟨due, kind s.nextId⟩ u.timed }

/-- Takes a free value's index (log entry 4). -/
def State.takeFree (s : State) : Nat × State := (s.free, { s with free := s.free + 1 })

end Sys2Proof.Machine
end

