-- ==== Sys2Proof/Machine/Number.lean ====
section
/-! DEFINITION. Number formats, rounding and exact arithmetic (R52 to R67, R72). A finite value is an exact dyadic
number m * 2^e; every operation is computed exactly and rounded once. -/
namespace Sys2Proof.Machine

/-! ### Integers (R52 to R54) -/

/-- `sat(x, T)` for a signed type of w bits (R53). -/
def satI (w : Nat) (x : Int) : Int :=
  let hi : Int := (2 : Int) ^ (w - 1)
  if x < -hi then -hi else if hi - 1 < x then hi - 1 else x

/-- An integer reduced into w bits (R52). -/
def wrap (w : Nat) (x : Int) : BitVec w := BitVec.ofInt w x

/-- Number of significant bits. -/
def bitLen (n : Nat) : Nat := if n = 0 then 0 else Nat.log2 n + 1

/-- `clz` of a word (R53). -/
def clzW {w : Nat} (x : BitVec w) : Nat := w - bitLen x.toNat

/-- Trailing zero bits, by counting up to the given width (R176). -/
def ctzGo (n : Nat) : Nat → Nat
  | 0 => 0
  | f + 1 => if n % 2 = 1 then 0 else 1 + ctzGo (n / 2) f
def ctzW {w : Nat} (x : BitVec w) : Nat := ctzGo x.toNat w

/-- Number of set bits (R176). -/
def popGo (n : Nat) : Nat → Nat
  | 0 => 0
  | f + 1 => n % 2 + popGo (n / 2) f
def popW {w : Nat} (x : BitVec w) : Nat := popGo x.toNat w

/-- The carry-less product of two words, by the bits of the second (R176, R215). -/
def clmulGo (a b : Nat) : Nat → Nat
  | 0 => 0
  | t + 1 => let r := clmulGo a b t
             if b.testBit t then r ^^^ (a <<< t) else r
def clmulW {w : Nat} (a b : BitVec w) : Nat := clmulGo a.toNat b.toNat w

/-- Signed quotient and remainder (R176, R215): division by zero gives -1 and the dividend, the overflow the dividend
and 0. -/
def divS {w : Nat} (a b : BitVec w) : BitVec w :=
  if b = 0#w then BitVec.ofInt w (-1) else wrap w (Int.tdiv a.toInt b.toInt)
def remS {w : Nat} (a b : BitVec w) : BitVec w :=
  if b = 0#w then a else wrap w (Int.tmod a.toInt b.toInt)
def divU {w : Nat} (a b : BitVec w) : BitVec w :=
  if b = 0#w then BitVec.ofInt w (-1) else BitVec.ofNat w (a.toNat / b.toNat)
def remU {w : Nat} (a b : BitVec w) : BitVec w :=
  if b = 0#w then a else BitVec.ofNat w (a.toNat % b.toNat)

/-! ### Floating-point formats (R55, R56) -/

/-- A floating-point format: exponent and fraction widths. -/
structure FFmt where
  ew : Nat
  fw : Nat
  deriving DecidableEq, Repr

def f16 : FFmt := ⟨5, 10⟩
def bf16 : FFmt := ⟨8, 7⟩
def f32 : FFmt := ⟨8, 23⟩
def f64 : FFmt := ⟨11, 52⟩

def FFmt.bias (f : FFmt) : Nat := 2 ^ (f.ew - 1) - 1
/-- Bits of +infinity. -/
def FFmt.inf (f : FFmt) : Nat := (2 ^ f.ew - 1) * 2 ^ f.fw
/-- The sign bit. -/
def FFmt.sign (f : FFmt) : Nat := 2 ^ (f.ew + f.fw)
/-- The canonical NaN (R55). -/
def FFmt.nan (f : FFmt) : Nat := f.inf + 2 ^ (f.fw - 1)

/-- An exact value: NaN, an infinity, a signed zero, or m * 2^e with m not 0. -/
inductive FVal where
  | nan
  | inf (neg : Bool)
  | zero (neg : Bool)
  | num (m : Int) (e : Int)
  deriving DecidableEq, Repr

/-- The value of the bits of a format (R55). -/
def unpack (f : FFmt) (b : Nat) : FVal :=
  let neg := b / f.sign % 2 = 1
  let ex := b / 2 ^ f.fw % 2 ^ f.ew
  let fr := b % 2 ^ f.fw
  let sg (n : Nat) : Int := if neg then -(n : Int) else n
  if ex = 2 ^ f.ew - 1 then (if fr = 0 then .inf neg else .nan)
  else if ex = 0 then
    (if fr = 0 then .zero neg else .num (sg fr) (1 - (f.bias : Int) - f.fw))
  else .num (sg (fr + 2 ^ f.fw)) ((ex : Int) - f.bias - f.fw)

/-- Whether a magnitude with the given remainder is rounded up (R53). `odd` is the last kept bit; `cmp` compares the
remainder with one half: 0 none, 1 below, 2 half, 3 above. -/
def roundsUp (mode : Nat) (neg odd : Bool) (cmp : Nat) : Bool :=
  match mode with
  | 2 => 2 ≤ cmp
  | 3 => false
  | 4 => cmp ≠ 0 && !neg
  | 5 => cmp ≠ 0 && neg
  | _ => cmp = 3 || (cmp = 2 && odd)

/-- Drops `sh` low bits of n, rounding; `sticky` says that the exact value lies a little above n. -/
def roundShift (mode : Nat) (neg : Bool) (n sh : Nat) (sticky : Bool) : Nat :=
  let q := n / 2 ^ sh
  let r := n % 2 ^ sh
  let cmp :=
    if sh = 0 then (if sticky then 1 else 0)
    else if 2 * r < 2 ^ sh then (if r = 0 && !sticky then 0 else 1)
    else if 2 * r = 2 ^ sh && !sticky then 2 else 3
  if roundsUp mode neg (q % 2 = 1) cmp then q + 1 else q

/-- Rounds the magnitude n * 2^e (n not 0) into a format's bits, with IEEE 754 overflow and subnormals (R53, R56). -/
def roundMag (f : FFmt) (mode : Nat) (neg : Bool) (n : Nat) (e : Int) (sticky : Bool) : Nat :=
  let ex : Int := e + bitLen n - 1
  let emin : Int := 1 - (f.bias : Int)
  let q : Int := (if ex < emin then emin else ex) - f.fw
  let k : Nat :=
    if q ≤ e then roundShift mode neg (n * 2 ^ (e - q).toNat) 0 sticky
    else roundShift mode neg n (q - e).toNat sticky
  let bits : Nat := if k < 2 ^ f.fw then k else (q + f.fw + f.bias).toNat * 2 ^ f.fw + (k - 2 ^ f.fw)
  let lim : Nat :=
    if f.inf ≤ bits then
      (match mode with
       | 3 => f.inf - 1
       | 4 => if neg then f.inf - 1 else f.inf
       | 5 => if neg then f.inf else f.inf - 1
       | _ => f.inf)
    else bits
  if neg then f.sign + lim else lim

/-- `round(x, mode)` into a floating-point format (R53); NaN gives the canonical NaN (R56). -/
def pack (f : FFmt) (mode : Nat) : FVal → Nat
  | .nan => f.nan
  | .inf neg => if neg then f.sign + f.inf else f.inf
  | .zero neg => if neg then f.sign else 0
  | .num m e => if m = 0 then 0 else roundMag f mode (m < 0) m.natAbs e false

/-- `round(x, mode)` into the integers (R53); none for NaN and infinities. -/
def roundInt (mode : Nat) : FVal → Option Int
  | .nan => none
  | .inf _ => none
  | .zero _ => some 0
  | .num m e =>
    let neg : Bool := m < 0
    let n : Nat := if 0 ≤ e then m.natAbs * 2 ^ e.toNat else roundShift mode neg m.natAbs (-e).toNat false
    some (if neg then -(n : Int) else n)

/-- Floating point to a signed integer of w bits (R58). -/
def toIntSat (w mode : Nat) (x : FVal) : Int :=
  match x with
  | .nan => 0
  | .inf neg => if neg then -((2 : Int) ^ (w - 1)) else (2 : Int) ^ (w - 1) - 1
  | _ => satI w ((roundInt mode x).getD 0)

/-- An exact integer as a value. -/
def ofIntV (x : Int) : FVal := if x = 0 then .zero false else .num x 0

/-! ### Exact arithmetic (R53, R216) -/

def FVal.isNeg : FVal → Bool
  | .nan => false
  | .inf n => n
  | .zero n => n
  | .num m _ => m < 0

def FVal.neg : FVal → FVal
  | .nan => .nan
  | .inf n => .inf !n
  | .zero n => .zero !n
  | .num m e => .num (-m) e

def FVal.abs : FVal → FVal
  | .nan => .nan
  | .inf _ => .inf false
  | .zero _ => .zero false
  | .num m e => .num (if m < 0 then -m else m) e

/-- The mantissa of m * 2^e over the smaller exponent d. -/
def alignTo (m e d : Int) : Int := m * (2 : Int) ^ (e - d).toNat

/-- The exact sum; a zero sum of non-zero numbers, or of zeros of both signs, is -0 under rm and +0 otherwise (R66). -/
def addV (mode : Nat) (a b : FVal) : FVal :=
  match a, b with
  | .nan, _ => .nan
  | _, .nan => .nan
  | .inf x, .inf y => if x = y then .inf x else .nan
  | .inf x, _ => .inf x
  | _, .inf y => .inf y
  | .zero x, .zero y => if x = y then .zero x else .zero (mode = 5)
  | .zero _, y => y
  | x, .zero _ => x
  | .num m e, .num n g =>
    let d := if e < g then e else g
    let t := alignTo m e d + alignTo n g d
    if t = 0 then .zero (mode = 5) else .num t d

/-- The exact product. -/
def mulV (a b : FVal) : FVal :=
  match a, b with
  | .nan, _ => .nan
  | _, .nan => .nan
  | .inf _, .zero _ => .nan
  | .zero _, .inf _ => .nan
  | .inf x, y => .inf (x != y.isNeg)
  | x, .inf y => .inf (x.isNeg != y)
  | .zero x, y => .zero (x != y.isNeg)
  | x, .zero y => .zero (x.isNeg != y)
  | .num m e, .num n g => .num (m * n) (e + g)

/-- Multiplies by 2^k exactly. -/
def scaleV (k : Int) : FVal → FVal
  | .num m e => .num m (e + k)
  | x => x

/-- The order of numbers: less than; false for NaN, and the zeros are equal. -/
def ltV (a b : FVal) : Bool :=
  match a, b with
  | .nan, _ => false
  | _, .nan => false
  | .inf x, .inf y => x && !y
  | .inf x, _ => x
  | _, .inf y => !y
  | .zero _, .zero _ => false
  | .zero _, .num n _ => 0 < n
  | .num m _, .zero _ => m < 0
  | .num m e, .num n g =>
    let d := if e < g then e else g
    alignTo m e d < alignTo n g d

def isNan : FVal → Bool
  | .nan => true
  | _ => false

/-- Equality of numbers: the zeros are equal, NaN equals nothing (R217). -/
def eqV (a b : FVal) : Bool := !isNan a && !isNan b && !ltV a b && !ltV b a

/-- The rounded quotient (R216, IEEE 754). -/
def divR (f : FFmt) (mode : Nat) (a b : FVal) : Nat :=
  match a, b with
  | .nan, _ => f.nan
  | _, .nan => f.nan
  | .inf _, .inf _ => f.nan
  | .zero _, .zero _ => f.nan
  | .inf x, y => pack f mode (.inf (x != y.isNeg))
  | x, .inf y => pack f mode (.zero (x.isNeg != y))
  | .zero x, y => pack f mode (.zero (x != y.isNeg))
  | x, .zero y => pack f mode (.inf (x.isNeg != y))
  | .num m e, .num n g =>
    let k := 80 + bitLen n.natAbs
    let p := m.natAbs * 2 ^ k
    roundMag f mode ((m < 0) != (n < 0)) (p / n.natAbs) (e - g - k) (p % n.natAbs ≠ 0)

/-- The integer square root: decides one bit of the root per step, from the given bit down. -/
def sqrtGo (n root : Nat) : Nat → Nat
  | 0 => root
  | t + 1 => let c := root + 2 ^ t
             if c * c ≤ n then sqrtGo n c t else sqrtGo n root t

/-- The rounded square root (R216). -/
def sqrtR (f : FFmt) (mode : Nat) (a : FVal) : Nat :=
  match a with
  | .nan => f.nan
  | .zero n => pack f mode (.zero n)
  | .inf n => if n then f.nan else f.inf
  | .num m e =>
    if m < 0 then f.nan
    else
      let k : Nat := 120 + (e % 2).toNat
      let n := m.natAbs * 2 ^ k
      let r := sqrtGo n 0 (bitLen n / 2 + 1)
      roundMag f mode false r ((e - k) / 2) (r * r ≠ n)

/-- ln 2 in units of 2^-320, from the sum of 1 / (j 2^j). -/
def ln2Go : Nat → Nat
  | 0 => 0
  | j + 1 => 2 ^ 320 / ((j + 1) * 2 ^ (j + 1)) + ln2Go j

/-- The exponential series of t in units of 2^-320, from term j with the given term. -/
def expGo (t term j : Nat) : Nat → Nat
  | 0 => 0
  | f + 1 => term + expGo t (term * t / ((j + 1) * 2 ^ 320)) (j + 1) f

/-- The rounded power of two (R216), from a 320-bit evaluation (log entry 13). -/
def exp2R (f : FFmt) (mode : Nat) (a : FVal) : Nat :=
  match a with
  | .nan => f.nan
  | .zero _ => pack f mode (.num 1 0)
  | .inf n => if n then 0 else f.inf
  | .num m e =>
    if ltV (.num 2048 0) a then roundMag f mode false 1 4096 false
    else if ltV a (.num (-2048) 0) then roundMag f mode false 1 (-4096) true
    else
      let den : Nat := 2 ^ (-e).toNat
      let num : Int := m * (2 : Int) ^ e.toNat
      let i : Int := num / den
      let r : Nat := (num % den).toNat
      if r = 0 then roundMag f mode false 1 i false
      else roundMag f mode false (expGo (r * ln2Go 330 / den) (2 ^ 320) 0 90) (i - 320) true

/-! ### The lanes' binary32 operations -/

def un32 (x : W32) : FVal := unpack f32 x.toNat
def pk32 (mode : Nat) (v : FVal) : W32 := BitVec.ofNat 32 (pack f32 mode v)

/-- `vmin.f32` and `vmax.f32` (R216): -0 below +0, a NaN gives way. -/
def minF (a b : W32) : W32 :=
  match un32 a, un32 b with
  | .nan, .nan => BitVec.ofNat 32 f32.nan
  | .nan, _ => b
  | _, .nan => a
  | .zero x, .zero _ => if x then a else b
  | x, y => if ltV y x then b else a
def maxF (a b : W32) : W32 :=
  match un32 a, un32 b with
  | .nan, .nan => BitVec.ofNat 32 f32.nan
  | .nan, _ => b
  | _, .nan => a
  | .zero x, .zero _ => if x then b else a
  | x, y => if ltV x y then b else a

/-! ### Block floating point (R59, R67, R85, R212) -/

/-- The value of a block element with mantissa M, exponent E and width m (R59). -/
def blockVal (m : Nat) (E : Nat) (M : Int) : FVal :=
  if E = 0 then .zero false else if E = 255 then .nan
  else if M = 0 then .zero false else .num M ((E : Int) - 127 - m + 2)

/-- The m-bit two's-complement value of bits. -/
def signedOf (m n : Nat) : Int := if n % 2 ^ m < 2 ^ (m - 1) then ((n % 2 ^ m : Nat) : Int) else ((n % 2 ^ m : Nat) : Int) - 2 ^ m

/-- R67 for one element: the mantissa written, and whether it is recorded as an outlier. `E` is not 255. -/
def narrowElem (m E mode : Nat) (x : W32) : Int × Bool :=
  let v := un32 x
  if E = 0 then (0, match v with | .zero _ => false | _ => true)
  else
    match roundInt mode (scaleV (-((E : Int) - 127 - m + 2)) v) with
    | none => (0, true)
    | some k => if k < -((2 : Int) ^ (m - 1)) ∨ (2 : Int) ^ (m - 1) - 1 < k then (0, true) else (k, false)

/-- The mantissa width of a width code (R212). -/
def widthOf (code : Nat) : Nat := if code = 7 then 16 else code + 2

/-- A descriptor's format code (R85): block width, or none for the plain formats. -/
def blockWidth (code : Nat) : Option Nat := if 0x0A ≤ code ∧ code ≤ 0x10 then some (code - 8) else if code = 0x11 then some 16 else none
/-- Bytes of an element of a plain format (R85). -/
def elemBytes (code : Nat) : Option Nat :=
  match code with
  | 1 => some 1 | 2 => some 1 | 3 => some 2 | 4 => some 2 | 5 => some 4 | 6 => some 4 | 7 => some 2 | 8 => some 2 | 9 => some 4
  | _ => none

/-! ### The squash (R72) -/

/-- The knots of R72. -/
def knots : List Nat := [11, 18, 30, 49, 81, 133, 219, 360, 589, 961, 1554, 2486, 3906, 5978, 8813, 12371]
  ++ [16384, 20397, 23955, 26790, 28862, 30282, 31214, 31807, 32179, 32408, 32549, 32635, 32687, 32719, 32738, 32750, 32757]

/-- R72. -/
def squash (x : Int) : Nat :=
  let xc : Int := if x < -2048 then -2048 else if 2048 < x then 2048 else x
  let u := (xc + 2048).toNat
  let k := u / 128
  let f := u % 128
  let y (j : Nat) : Int := (knots.getD j 0 : Nat)
  if k = 32 then knots.getD 32 0 else (y k + ((y (k + 1) - y k) * f + 64) / 128).toNat

end Sys2Proof.Machine
end

