-- ==== Sys2Proof/Machine/Memory.lean ====
section
/-! DEFINITION. Memory: bytes in canonical form, the address windows (R73), translation (R356 to R358), full-empty
bits (R75, R391), poison (R367), watermark stalls (R90), the cluster cache (R84, R104) and the race detector
(R111 to R116). Every access of every unit goes through the operations at the end of the file. -/
namespace Sys2Proof.Machine

/-! ### Bytes -/

/-- A byte of memory; a byte not listed reads zero (log entry 1). -/
def memByte (m : List Host.Cell) (a : Nat) : Byte := mapGet 0#8 a m
/-- Writes a byte; writing zero lists nothing. -/
def memPut (m : List Host.Cell) (a : Nat) (b : Byte) : List Host.Cell := mapPut 0#8 a b m
/-- The canonical form: addresses strictly rising and no listed byte zero. -/
abbrev Memory.wf (m : List Host.Cell) : Bool := rising (mapKeys m) && m.all fun e => e.2 != 0#8

/-- n bytes at an address as a number, little-endian (R6). -/
def memNat (m : List Host.Cell) (a : Nat) : Nat → Nat
  | 0 => 0
  | n + 1 => (memByte m a).toNat + 256 * memNat m (a + 1) n
/-- Writes the low n bytes of a number, little-endian. -/
def memPutNat (m : List Host.Cell) (a v : Nat) : Nat → List Host.Cell
  | 0 => m
  | n + 1 => memPutNat (memPut m a (BitVec.ofNat 8 v)) (a + 1) (v / 256) n
/-- Writes a list of bytes. -/
def memPutBytes (m : List Host.Cell) (a : Nat) : List Byte → List Host.Cell
  | [] => m
  | b :: r => memPutBytes (memPut m a b) (a + 1) r
/-- A list of n bytes. -/
def memBytes (m : List Host.Cell) (a : Nat) : Nat → List Byte
  | 0 => []
  | n + 1 => memByte m a :: memBytes m (a + 1) n
/-- n zero bytes: nothing listed in the range. -/
def memClear (m : List Host.Cell) (a n : Nat) : List Host.Cell := mapDelRange a (a + n) m

/-! ### Physical places -/

/-- Base of a cluster's memory and of a core's memory. -/
def clusterBase (k : Nat) : Nat := 2 ^ 40 + k * 2 ^ 23
def coreBase (c : Nat) : Nat := 2 ^ 41 + c * 2 ^ 19

/-- The four memories as an address names them (R73). -/
inductive Space where
  | device | cluster | core
  deriving DecidableEq, Repr

/-- R73: the memory an address falls into; none for bits above 51 or a reserved range. -/
def spaceOf (a : Nat) : Option Space :=
  if 2 ^ 52 ≤ a then none
  else if a < 0x000FFFFF00000000 then some .device
  else if 0x000FFFFFFF000000 ≤ a ∧ a ≤ 0x000FFFFFFF7FFFFF then some .cluster
  else if 0x000FFFFFFFF80000 ≤ a then some .core
  else none

/-- A unit that performs accesses: where its windows lie and who it is (R99, R112). -/
structure Who where
  /-- Core whose memory the core window names, and the cluster. -/
  core : Nat
  cluster : Nat
  /-- Race key: a core's agent, or 16 + channel. -/
  agent : Nat
  id : Nat
  ctx : Nat
  deriving DecidableEq, Repr

/-- An engine of a core. -/
def whoCore (s : State) (c e : Nat) : Who := ⟨c, clusterOf c, agentOf e, unitId c (agentOf e), (s.core c).ctx⟩
/-- A copy channel acting for an entry, with the core that a core-window address names (R273). -/
def whoChan (k ch ctx core : Nat) : Who := ⟨core, k, 16 + ch, chanId k ch, ctx⟩

/-! ### Translation (R356 to R358, R380) -/

/-- The partition of a die (R379, R380). -/
def partOf (s : State) (d : Nat) : Nat := if s.sys.part = 1 then d / 2 else if s.sys.part = 2 then d else 0
/-- The dies of the partition that holds a die. -/
def partDies (s : State) (d : Nat) : List Nat := [0, 1, 2, 3].filter fun e => partOf s e = partOf s d

/-- Whether a die's units have been stopped by a fatal error of its partition (R371, R380). -/
def dieStopped (s : State) (d : Nat) : Bool := s.sys.fatalParts.contains (partOf s d)

/-- How a walk ends: a leaf, or a cause and the level reached. Both count the table reads by die. -/
inductive WalkRes where
  | leaf (t : Tlb) (dies : List Nat)
  | fail (cause level : Nat) (dies : List Nat)
  deriving DecidableEq, Repr

/-- The index of a level and the bytes it maps (R356). -/
def levelIndex (va level : Nat) : Nat :=
  match level with
  | 0 => va / 2 ^ 39 % 8192 | 1 => va / 2 ^ 30 % 512 | 2 => va / 2 ^ 21 % 512 | _ => va / 2 ^ 16 % 32
def levelSize (level : Nat) : Nat := match level with | 0 => 2 ^ 39 | 1 => 2 ^ 30 | 2 => 2 ^ 21 | _ => 2 ^ 16
/-- Size of the next level's table (R356). -/
def tableSize (level : Nat) : Nat := match level with | 0 => 65536 | 3 => 256 | _ => 4096

/-- The poisoned granules of a physical address: a 64-byte line of device memory or 16 bytes elsewhere (R367). -/
def granuleOf (pa : Nat) : Nat := if pa < 2 ^ 40 then pa / 64 * 4 else pa / 16
def isPoisoned (s : State) (pa : Nat) : Bool := mapGet false (granuleOf pa) s.poison

/-- One level of the walk and those below it (R357). -/
def walkGo (s : State) (ctx va table level : Nat) (dies : List Nat) : Nat → WalkRes
  | 0 => .fail 0x18 level dies
  | f + 1 =>
    let at_ := table + 8 * levelIndex va level
    let dies := dies ++ [at_ / 2 ^ 38]
    let e := memNat s.mem at_ 8
    let addr := e / 256 % 2 ^ 32 * 256
    let leaf : Bool := e.testBit 1
    let size := if leaf then levelSize level else tableSize (level + 1)
    if isPoisoned s at_ then .fail 0x1A level dies
    else if !e.testBit 0 then .fail 0x14 level dies
    else if 2 ^ 40 ≤ e ∨ e / 32 % 8 ≠ 0 ∨ (leaf ∧ level = 0) ∨ (!leaf ∧ level = 3) ∨ addr % size ≠ 0 ∨
        192 * 2 ^ 30 ≤ addr % 2 ^ 38 ∨ (leaf ∧ partOf s (addr / 2 ^ 38) ≠ partOf s (s.ctx ctx).die) then
      .fail 0x18 level dies
    else if leaf then
      .leaf ⟨ctx, va / size * size, size, addr, e.testBit 2, e.testBit 3, e.testBit 4⟩ dies
    else walkGo s ctx va addr (level + 1) dies f

/-- A whole walk of a context (R356, R357). DESIGN CHOICE (log entry 55): a root at or above 192 GiB of a die is read as though memory stood
there. -/
def walkOf (s : State) (ctx va : Nat) : WalkRes := walkGo s ctx va (s.ctx ctx).ptroot.toNat 0 [] 4

/-- Cycles of a walk from a die (R358): ten, and one device-memory read for each level with its leg. -/
def walkCycles (die : Nat) (dies : List Nat) : Nat := 10 + (dies.map fun d => 140 + legCy die d).sum

/-- The translation that a table holds for an address (R358). -/
def tlbFind (ctx va : Nat) (t : List Tlb) : Option Tlb :=
  t.find? fun e => e.ctx = ctx && e.va ≤ va && va < e.va + e.size

/-- Enters a translation, dropping the oldest beyond the table's size (log entry 7). -/
def tlbAdd (n : Nat) (e : Tlb) (t : List Tlb) : List Tlb := (e :: t).take n

/-- The level of the leaf that a translation came from (R356). -/
def leafLevel (e : Tlb) : Nat := if e.size = levelSize 1 then 1 else if e.size = levelSize 2 then 2 else 3

/-- What a translation gives: a refusal names the level of the leaf. -/
inductive Trans where
  | ok (pa : Nat) (relax : Bool) (extra : Nat)
  | trap (cause level : Nat)
  | miss
  deriving DecidableEq, Repr

/-- Translation of a device address for a strand's unit (R357, R358): the core's table, then the cluster's. The front end (agent 48) has no table of a core,
and a line that hits adds no cycle to its stream (R127). An L or W engine whose address only its cluster's
table holds waits first, as for a walk, and the core's table takes the translation over. -/
def translate (s : State) (w : Who) (va : Nat) (write fetch : Bool) : Trans :=
  let k := s.cluster w.cluster
  let use (e : Tlb) (extra : Nat) : Trans :=
    if write && (!e.w || e.relax) then .trap 0x15 (leafLevel e)
    else if fetch && !e.x then .trap 0x19 (leafLevel e)
    else .ok (e.pa + (va - e.va)) e.relax extra
  let own := if w.agent < 16 then tlbFind w.ctx va (mapGet [] w.core k.ctlb) else none
  match own with
  | some e => use e 0
  | none =>
    match tlbFind w.ctx va k.tlb with
    | some e => if 1 ≤ w.agent && w.agent ≤ 3 then .miss else use e (if w.agent = 48 then 0 else 6)
    | none => .miss

/-- The page that a walk for an address is for: that of the leaf it ends in, else a 64 KiB granule (R356; log entry 7). -/
def walkPage (s : State) (ctx va : Nat) : Nat × Nat :=
  match walkOf s ctx va with
  | .leaf t _ => (t.va, t.size)
  | .fail _ _ _ => (va / 65536 * 65536, 65536)

/-- Starts a walk on the walkers of a die, or joins the one under way for the page from the same cluster (R358). A walk that finds
all 64 walkers busy starts when one of them is free. -/
def startWalkAt (s : State) (ctx cluster die : Nat) (p : Waiter) : State :=
  let same (x : Walk) : Bool := x.ctx = ctx && x.cluster = cluster && decide (x.page.1 ≤ p.va) && decide (p.va < x.page.1 + x.page.2)
  if s.walks.any same then
    { s with walks := s.walks.map fun x => if same x && !(x.parties.any fun y => y.who = p.who) then { x with parties := x.parties ++ [p] } else x }
  else
    let dues := ((s.walks.filter fun x => x.die = die).map (·.due)).mergeSort (· ≤ ·)
    let begin_ := if dues.length < 64 then s.now else max s.now (dues.getD (dues.length - 64) s.now)
    let cyc := match walkOf s ctx p.va with
      | .leaf _ d => walkCycles die d
      | .fail _ _ d => walkCycles die d
    let id := s.nextId
    let x : Walk := { id := id, ctx := ctx, va := p.va, page := walkPage s ctx p.va, die := die, cluster := cluster, due := begin_ + cyc, parties := [p] }
    ({ s with nextId := s.nextId + 1, walks := s.walks ++ [x] } : State).schedule (begin_ + cyc) (.translationWalkDone id)

/-- A walk for a unit of a cluster. -/
def startWalk (s : State) (w : Who) (va : Nat) (write fetch : Bool) (party : Nat × Nat) : State :=
  startWalkAt s w.ctx w.cluster (dieOfCluster w.cluster) ⟨party, va, write, fetch⟩

/-! ### Outcomes of an access -/

/-- A unit that stalls on a channel's watermark (R90): the channel, the unit, and the bytes it waits for. -/
structure StallMark where
  cluster : Nat
  chan : Nat
  core : Nat
  agent : Nat
  pa : Nat
  n : Nat
  deriving DecidableEq, Repr

/-- What an access gives: a value, a trap (with the INFO of a race report), a stall, or a wait for a walk. -/
inductive Got (α : Type) where
  | ok (a : α) (s : State)
  | trap (cause : Nat) (info : Option Nat) (s : State)
  | stall (m : Option StallMark)
  | miss (va : Nat) (write fetch : Bool)
  deriving DecidableEq, Repr

/-- The INFO of a trap that is the result of a walk: the record then names the faulting address (R357, R362; log entry 28). -/
def refusedAt (va : Nat) : Option Nat := some (2 ^ 64 + va % 2 ^ 52)
/-- INFO and ADDR of a record (R362): without an INFO of its own it is the unit's word in the groups below 0x50 and zero above, and the address is the instruction's
unless a walk refused one. -/
def recordInfo (cause : Nat) (info : Option Nat) (word : W64) : W64 :=
  let w := if cause < 0x50 then word else 0
  match info with
  | some n => if n < 2 ^ 64 then BitVec.ofNat 64 n else w
  | none => w
def recordAddr (info : Option Nat) (addr : W64) : W64 :=
  match info with
  | some n => if n < 2 ^ 64 then addr else BitVec.ofNat 64 (n - 2 ^ 64)
  | none => addr

def Got.bind {α β : Type} (g : Got α) (f : α → State → Got β) : Got β :=
  match g with
  | .ok a s => f a s
  | .trap c i s => .trap c i s
  | .stall m => .stall m
  | .miss a w x => .miss a w x

/-! ### The race detector -/

/-- Race state of a unit. -/
def raceGet (s : State) (w : Who) : RaceUnit :=
  if w.agent < 16 then mapGet RaceUnit.reset w.agent (s.core w.core).race
  else mapGet RaceUnit.reset (w.agent - 16) (s.cluster w.cluster).race
def racePut (s : State) (w : Who) (r : RaceUnit) : State :=
  if w.agent < 16 then s.modCore w.core fun k => { k with race := mapSet w.agent r k.race }
  else s.modCluster w.cluster fun k => { k with race := mapSet (w.agent - 16) r k.race }

/-- R112: h covers n modulo 2^32. -/
def covers (h n : W32) : Bool := (h - n).toNat < 2 ^ 31

/-- The smallest scope that contains two units of the clusters (R100, R114): core 0, cluster 1, die 2, device 3. -/
def scopeOf (a b : Nat) : Nat :=
  let die (u : Nat) := u / 16384
  let cl (u : Nat) := u / 256
  let ch (u : Nat) : Bool := 16 ≤ u % 32
  if die a ≠ die b then 3
  else if cl a ≠ cl b then 2
  else if ch a && ch b then 1
  else if ch a || ch b then 0
  else if a / 32 = b / 32 then 0 else 1

/-- Of two acquisitions of one writer, the higher interval, and with an equal one the wider scope (R113). -/
def laterOf (a b : W32 × Nat) : W32 × Nat := if a.1 = b.1 then (a.1, max a.2 b.2) else if covers b.1 a.1 then b else a

/-- Touches an entry (R113): the later acquisition, with its age renewed. -/
def tabTouch (e : REnt) (t : List REnt) : List REnt :=
  let new : REnt :=
    match t.find? fun x => x.unit = e.unit with
    | none => e
    | some o =>
      let l := laterOf (o.ivl, o.scope) (e.ivl, e.scope)
      { e with ivl := l.1, scope := l.2, own := match o.own, e.own with
        | some a, some b => some (laterOf a b)
        | a, b => a.or b }
  (t.filter fun x => x.unit ≠ e.unit) ++ [new]

/-- Raises an entry's scope to at least a scope (R113). -/
def REnt.raise (scope : Nat) (e : REnt) : REnt := { e with scope := max e.scope scope, own := e.own.map fun x => (x.1, max x.2 scope) }

/-- What a release enters in a table at a scope (R113): the releaser at its interval, and the entries of its table with scopes raised to the pair's.
DEDUCED (log entry 16): what the releaser has acquired of its own accesses stays beside its newer interval, for R124 has a `fork` pass on at
cluster scope what the releaser's own pop of a completion token has acquired. -/
def Rel.ents (scope : Nat) (r : Rel) : List REnt :=
  ⟨r.unit, r.ivl, scope, Option.none⟩ :: r.tab.map fun e =>
    let e := e.raise scope
    if e.unit = r.unit then { e with own := some ((e.own.map (laterOf (e.ivl, e.scope))).getD (e.ivl, e.scope)) } else e

/-- Whether an entry covers an interval at a scope (R114). -/
def REnt.verifies (e : REnt) (ivl : W32) (need : Nat) : Bool :=
  covers e.ivl ivl && need ≤ e.scope || e.own.any fun x => covers x.1 ivl && decide (need ≤ x.2)

/-- The pseudo-units of a core: V, and C with what its own completions have released (log entry 16). -/
def pseudo (agent : Nat) : Bool := agent = 4 || agent = 6 || agent = 7

/-- Whether an identifier can stand in a table: V, the copy ring and its completions (agents 4, 6 and 7) and system writers are no units
of the tables (R99, R115). -/
def tabled (u : Nat) : Bool := u / 256 % 64 ≠ 63 && !pseudo (u % 32)

/-- A unit acquires a release at a scope in a pulse (R113): the releaser, and its table with scopes raised to the pair's. An entry that
names the acquiring unit itself is merged like any other (log entry 16). The entries touched in one cycle count as touched in the order of
their identifiers, whichever of its acquires touched them. -/
def acquire (now scope : Nat) (r : Rel) (u : RaceUnit) : RaceUnit :=
  let new := (r.ents scope).filter fun e => tabled e.unit
  let before := u.tab.drop (u.tab.length - if u.touched.1 = now then u.touched.2 else 0)
  let t := new.foldl (fun t e => tabTouch e t) u.tab
  let mine (e : REnt) : Bool := (before ++ new).any fun x => x.unit = e.unit
  let fresh := (t.filter mine).mergeSort fun a b => a.unit ≤ b.unit
  let all := (t.filter fun e => !mine e) ++ fresh
  { u with tab := all.drop (all.length - 16), evicted := u.evicted || decide (16 < all.length), touched := (now, min 16 fresh.length) }

/-- Adds a release at a scope to what a pseudo-unit carries from one unit to another: no table of a unit, it has no 16 places (log entry 16). -/
def gather (scope : Nat) (r : Rel) (u : RaceUnit) : RaceUnit := { u with tab := ((r.ents scope).filter fun e => tabled e.unit).foldl (fun t e => tabTouch e t) u.tab }

/-- The release a unit makes now of everything (R106, R107). -/
def relOf (id : Nat) (u : RaceUnit) : Rel := { unit := id, ivl := u.ivl, tab := u.tab }

/-- The higher of two intervals. -/
def ivlMax (a b : W32) : W32 := if covers a b then a else b

/-- A release limited to the classes of a mask (R106, R153): it covers the latest write of a class in the mask, released before or not, and
of the writes outside the mask none but what an interval so released holds. DESIGN CHOICE (log entry 16): an earlier release of any kind has counted up, so
writes outside the mask that it covered are covered here too. -/
def relMasked (id : Nat) (mask : BitVec 16) (u : RaceUnit) : Rel :=
  let out := u.unrel.filterMap fun e => if mask.getLsbD e.1 then none else e.2.1
  let before := out.foldl (fun i e => if covers i e then e - 1 else i) u.ivl
  let own := u.unrel.filter fun e => mask.getLsbD e.1
  { unit := id, tab := u.tab, ivl := own.foldl (fun i e => ivlMax i e.2.2) before }

/-- Counts a release of S or a completed entry (R112): the classes of the mask have been released. -/
def bump (mask : BitVec 16) (u : RaceUnit) : RaceUnit :=
  let left := u.unrel.map fun e => if mask.getLsbD e.1 then (e.1, none, e.2.2) else e
  { u with ivl := u.ivl + 1, unrel := if left.all fun e => e.2.1.isNone then [] else left }

/-- A write of a class that a unit makes now (R106, R112). -/
def RaceUnit.wrote (u : RaceUnit) (cls : Nat) : RaceUnit :=
  let first := ((mapFind cls u.unrel).bind (·.1)).getD u.ivl
  { u with unrel := mapSet cls (some first, u.ivl) u.unrel }

/-- The physical address of a device address, as the page tables stand. -/
def pureAddr (s : State) (ctx va : Nat) (write : Bool) : Option Nat :=
  match spaceOf va with
  | some .device =>
    match walkOf s ctx va with
    | .leaf t _ => if write && !t.w then none else some (t.pa + (va - t.va))
    | .fail _ _ _ => none
  | _ => none

/-! ### Translation outside the clusters (R358) -/

/-- The table of a unit of a die: 160 + die for its command processor, 164 + die for its pool unit. -/
def unitTable (s : State) (u : Nat) : List Tlb := if u < 164 then (s.die (u - 160)).tlb else (s.die (u - 164)).ptlb

/-- The physical address of a device address for such a unit: through its table, which a walk fills. -/
def dieAddr (s : State) (u ctx va : Nat) (write : Bool) : Option Nat :=
  match spaceOf va with
  | some .device =>
    match tlbFind ctx va (unitTable s u) with
    | some e => if write && !e.w then none else some (e.pa + (va - e.va))
    | none => pureAddr s ctx va write
  | _ => none

/-- The first address of each 64 KiB granule that a range touches. -/
def pageVas (va n : Nat) : List Nat :=
  if n = 0 then [] else (List.range ((va + n - 1) / 65536 - va / 65536 + 1)).map fun i => max va ((va / 65536 + i) * 65536)

/-- What such a unit does before it uses addresses (R358): the first one that its table lacks is walked for, and the unit waits. An
address that a walk has just found unmapped is not walked for again; its use then fails. -/
def dieWalk (s : State) (u ctx : Nat) (party : Nat × Nat) (write : Bool) (vas : List Nat) : Option State :=
  (vas.find? fun va => spaceOf va = some .device && (tlbFind ctx va (unitTable s u)).isNone &&
    !((s.die party.1).unmapped.any fun x => x.1 = ctx && x.2.1 = va / 65536 && decide (s.now ≤ x.2.2 + 1))).map fun va =>
      startWalkAt s ctx u party.1 ⟨party, va, write, false⟩

/-! ### Watermarks (R89, R90) -/

/-- The translation by which a channel of a cluster writes: the one that its cluster's table holds, else the leaf that a walk would end in
(R358). -/
def heldPage (s : State) (k ctx va : Nat) : Option Tlb :=
  match tlbFind ctx va (s.cluster k).tlb with
  | some t => some t
  | none =>
    match walkOf s ctx va with
    | .leaf t _ => some t
    | .fail _ _ _ => none

/-- Whether n bytes at a physical address lie in what a channel has yet to land. -/
def inWatermark (s : State) (k : Nat) (ch : Chan) (pa n : Nat) : Bool :=
  ch.active &&
  match ch.queue with
  | [] => false
  | e :: _ =>
    let lo := ch.wm.toNat
    let hi := ch.last.toNat
    match spaceOf lo with
    | some .core =>
      let b := coreBase (k * 8 + e.word.toNat / 2 ^ 33 % 8)
      let x := b + (lo - 0x000FFFFFFFF80000)
      let y := b + (hi - 0x000FFFFFFFF80000)
      x < pa + n && pa < y
    | some .cluster =>
      let x := clusterBase k + (lo - 0x000FFFFFFF000000)
      let y := clusterBase k + (hi - 0x000FFFFFFF000000)
      x < pa + n && pa < y
    | some .device =>
      (List.range ((hi - 1) / 65536 - lo / 65536 + 1)).any fun i =>
        let page := (lo / 65536 + i) * 65536
        match heldPage s k e.ctx page with
        | some t =>
          let base := t.pa + (page - t.va)
          let x := base + (if page < lo then lo - page else 0)
          let y := base + (if hi < page + 65536 then hi - page else 65536)
          x < pa + n && pa < y
        | none => false
    | none => false

/-- R90: an access by a unit of a cluster stalls on a watermark of the cluster's channels. -/
def watermarkStall (s : State) (w : Who) (pa n : Nat) : Bool :=
  (s.cluster w.cluster).chans.any fun e => e.1 + 16 ≠ w.agent && inWatermark s w.cluster e.2 pa n

/-- The channel whose watermark stalls an access. -/
def stallMark (s : State) (w : Who) (pa n : Nat) : Option StallMark :=
  ((s.cluster w.cluster).chans.find? fun e => e.1 + 16 ≠ w.agent && inWatermark s w.cluster e.2 pa n).map fun e =>
    ⟨w.cluster, e.1, w.core, w.agent, pa, n⟩

/-- Remembers a stalled unit: it acquires the landed bytes when the watermark passes (R106). -/
def noteStall (s : State) (m : Option StallMark) : State :=
  match m with
  | none => s
  | some m =>
    let x := (m.core, m.agent, m.pa, m.n)
    s.modCluster m.cluster fun u =>
      { u with chans := mapMod Chan.reset m.chan (fun c => if c.waiters.contains x then c else { c with waiters := c.waiters ++ [x] }) u.chans }

/-! ### The write itself -/

/-- Poison after a write of n bytes in one access: a granule wholly covered is clean again (R367). -/
def unpoison (s : State) (pa n : Nat) : State :=
  if s.poison.isEmpty then s
  else
    let g := if pa < 2 ^ 40 then 64 else 16
    { s with poison := s.poison.filter fun e =>
        let lo := e.1 * 16
        !(decide (pa ≤ lo) && decide (lo + g ≤ pa + n)) }

/-- Whether a write at a physical sector ends a park (R182): the parked load observes it. The park's first number is
2 * sector, plus one for a plain load of device memory, which observes what its cluster cache holds. -/
def parkSees (s : State) (c sector pa n : Nat) (w : Who) (scalar : Bool) : Bool :=
  let sec := sector / 2
  decide (sec * 64 < pa + n) && decide (pa < sec * 64 + 64) &&
    (sector % 2 = 0 || (scalar && w.cluster = clusterOf c) || (mapFind sec (s.cluster (clusterOf c)).cache).isNone)

/-- Wakes the strands parked on a sector that has been written (R182). -/
def wakeParks (s : State) (pa n : Nat) (w : Who) (scalar : Bool) : State :=
  let woken := s.cores.filterMap fun (c, k) =>
    match k.su.wait with
    | .park sec _ => if parkSees s c sec pa n w scalar then some (Turn.event (.parkWake c)) else none
    | _ => none
  if woken.isEmpty then s else { s with agenda := s.agenda ++ woken }

/-- Who delivers a slot: the dies whose delivery unit is enabled, with the physical pieces of their slots (R373, R374). -/
def slotPieces (s : State) (d : Die) : List (Nat × Nat × Nat) :=
  let desc := d.dlv.toNat / 16 * 16
  match pureAddr s d.cp.ctx desc false, pureAddr s d.cp.ctx (desc + 16) false with
  | some a, some b =>
    let base := memNat s.mem (a + 8) 8 % 2 ^ 52
    let n := 128 * memNat s.mem b 2
    if n = 0 then []
    else (List.range ((base % 65536 + n - 1) / 65536 + 1)).filterMap fun i =>
      let lo := if i = 0 then 0 else 65536 * i - base % 65536
      (pureAddr s d.cp.ctx (base + lo) false).map fun pa => (pa, lo, min n (65536 * (i + 1) - base % 65536) - lo)
  | _, _ => []

/-- A strand's write to the FLAGS of a delivery slot (R377): with STOP clear the slot's history is cleared. -/
def noteFlags (s : State) (pa n : Nat) : State :=
  if s.dies.all fun d => !d.2.dlv.getLsbD 0 then s
  else
    { s with dies := s.dies.map fun d =>
        if !d.2.dlv.getLsbD 0 then d
        else
          match (slotPieces s d.2).find? fun p => decide (p.1 ≤ pa) && decide (pa < p.1 + p.2.2) with
          | none => d
          | some (base, off, _) =>
            let slot := (off + (pa - base)) / 128
            let o := (off + (pa - base)) % 128
            if 12 ≤ o ∨ o + n ≤ 8 then d
            else
              let f := memNat s.mem (pa - o + 8) 1
              (d.1, if f.testBit 1 then d.2 else { d.2 with hist := mapDel slot d.2.hist }) }

/-- Writes bytes at a physical address, with everything that follows a write: a release carried by an atomic write is
overwritten, poison clears, the writer's own cluster cache follows a scalar write, parked strands wake. -/
def pokeBytes (s : State) (w : Who) (pa : Nat) (bs : List Byte) (scalar : Bool) : State :=
  let n := bs.length
  let s := { s with mem := memPutBytes s.mem pa bs, arel := if s.arel.isEmpty then [] else mapDelRange pa (pa + n) s.arel }
  let s := unpoison s pa n
  let s := if scalar && pa < 2 ^ 40 then
      s.modCluster w.cluster fun k =>
        match mapFind (pa / 64) k.cache with
        | none => k
        | some _ => { k with cache := mapSet (pa / 64) (memBytes s.mem (pa / 64 * 64) 64) k.cache }
    else s
  wakeParks (if scalar then noteFlags s pa n else s) pa n w scalar

/-! ### The race log and the check (R114, R116) -/

/-- The little-endian bytes of a number. -/
def natBytes (v n : Nat) : List Byte := (List.range n).map fun i => BitVec.ofNat 8 (v / 256 ^ i)

/-- A write of the race detector to the race log (R116): it has what follows any write, and leaves the shadow records as they are
(log entry 16). -/
def logPoke (s : State) (ctx pa : Nat) (bs : List Byte) : State := pokeBytes s ⟨0, 160, 0, 0, ctx⟩ pa bs false

/-- Appends a record to the context's race log, the header last and in one write (R116); gives the record's index, or none when
it is dropped. A record whose own page cannot be written is dropped and not counted (log entry 16). DESIGN CHOICE (log entry 16): so is one whose CTX.RACELOG
names the core or the cluster window, which lie inside a window but are not translated. -/
def raceLog (s : State) (w : Who) (va cls need kind : Nat) (sh : Shadow) (held : Option W32) : Option Nat × State :=
  let base := (s.ctx w.ctx).racelog.toNat
  match pureAddr s w.ctx base true with
  | none => (none, s)
  | some h =>
    if isPoisoned s h then (none, s)
    else
      let count := memNat s.mem h 4
      let cap := memNat s.mem (h + 4) 4
      let drop := memNat s.mem (h + 12) 4
      let header (s : State) (count drop : Nat) : State := logPoke s w.ctx h (natBytes (count + 2 ^ 32 * cap + 2 ^ 96 * drop) 16)
      if cap ≤ count then (none, header s count (min (drop + 1) (2 ^ 32 - 1)))
      else
        let at_ := base + 16 + 32 * count
        match pureAddr s w.ctx at_ true, pureAddr s w.ctx (at_ + 16) true with
        | some a, some b =>
          let ivl := match held with
            | some h => h.toNat
            | none => 2 ^ 32 - 1
          let s := logPoke s w.ctx a (natBytes (va % 2 ^ 52 + 2 ^ 64 * w.id + 2 ^ 80 * sh.writer + 2 ^ 96 * sh.ivl.toNat) 16)
          let s := logPoke s w.ctx b (natBytes (ivl + 2 ^ 32 * kind + 2 ^ 40 * need + 2 ^ 48 * cls + 2 ^ 64 * (s.cluster w.cluster).dcy) 16)
          (some count, header s (count + 1) drop)
        | _, _ => (none, s)

/-- R114, R116: checks an access to a sector. The access performs unless a trap is given. -/
def raceCheck (s : State) (w : Who) (va pa cls : Nat) (write : Bool) : Got Unit :=
  match mapFind (pa / 64) s.shadow with
  | none => .ok () s
  | some sh =>
    if sh.writer = w.id ∨ sh.writer / 256 % 64 = 63 then .ok () s
    else
      let u := raceGet s w
      let need := max sh.scope (scopeOf sh.writer w.id)
      let ent := u.tab.find? fun e => e.unit = sh.writer
      let good : Bool := match ent with
        | some e => e.verifies sh.ivl need
        | none => false
      if good then .ok () s
      else
        let kind := if ent.isNone && u.evicted then 2 else if write then 0 else 1
        let (idx, s') := raceLog s w va cls need kind sh (ent.map (·.ivl))
        if kind ≠ 2 && (s.ctx w.ctx).rtrap then .trap 0x40 (some (idx.getD (2 ^ 32 - 1))) s' else .ok () s'

/-- The scope of a write's visibility (R114). -/
def shadowScope (pa : Nat) (scalar : Bool) : Nat := if 2 ^ 41 ≤ pa then 0 else if 2 ^ 40 ≤ pa then 1 else if scalar then 1 else 3

/-- Records a write in the shadow of its sector (R114) and in the unit's unreleased classes. -/
def shadowWrite (s : State) (w : Who) (pa cls : Nat) (scalar relax : Bool) : State :=
  if relax then s
  else
    let u := raceGet s w
    let s := { s with shadow := mapSet (pa / 64) ⟨w.id, u.ivl, shadowScope pa scalar⟩ s.shadow }
    racePut s w (u.wrote cls)

/-- A write by a system writer (R115): shadow with interval 0 and scope system. The rules give no bound of the offset (log entry 55). -/
def systemWrite (s : State) (unit pa : Nat) (bs : List Byte) : State :=
  let w : Who := ⟨0, 160, 0, unit, 0⟩
  let s := pokeBytes s w pa bs false
  let first := pa / 64
  let count := if bs.isEmpty then 0 else (pa + bs.length - 1) / 64 - first + 1
  { s with shadow := (List.range count).foldl (fun m i => mapSet (first + i) ⟨unit, 0, 4⟩ m) s.shadow }

/-! ### Full-empty bits (R75, R76, R391) -/

/-- The granule of an offset in a core's memory. -/
def granKey (c off : Nat) : Nat := (coreBase c + off) / 16
def isFull (s : State) (key : Nat) : Bool := (mapFind key s.full).isSome
def setFull (s : State) (key : Nat) (r : Option Rel) : State := { s with full := mapSet key r s.full }
def clearFull (s : State) (key : Nat) : State := { s with full := mapDel key s.full }

/-- The granule of core memory that holds a byte of the core window or of a core's memory, by offset / 16. -/
def granNo (a : Nat) : Nat := a % 2 ^ 19 / 16
/-- The granules of a written range, by offset / 16. -/
def granNos (a n : Nat) : List Nat := if n = 0 then [] else (List.range ((a + n - 1) / 16 - a / 16 + 1)).map fun i => granNo (16 * (a / 16 + i))
/-- Sets the bits of the granules of a written range of core memory whose last byte has now landed (R76): those that the
writing entry does not hold open for a later write. -/
def setFullRange (s : State) (pa n : Nat) (open_ : Nat → Bool) (r : Option Rel) : State :=
  if pa < 2 ^ 41 ∨ n = 0 then s
  else (List.range ((pa + n - 1) / 16 - pa / 16 + 1)).foldl (fun s i => if open_ (granNo (16 * (pa / 16 + i))) then s else setFull s (pa / 16 + i) r) s

/-! ### Accesses -/

/-- Where an access lands: its physical address, whether the page is relaxed, extra cycles of translation. -/
structure Place where
  pa : Nat
  relax : Bool
  extra : Nat
  space : Space
  deriving DecidableEq, Repr

/-- A core's table takes a translation over from its cluster's (R358). -/
def refill (s : State) (w : Who) (va : Nat) : State :=
  let k := s.cluster w.cluster
  match (if w.agent < 16 then tlbFind w.ctx va (mapGet [] w.core k.ctlb) else none), tlbFind w.ctx va k.tlb with
  | none, some e => if w.agent < 16 then s.modCluster w.cluster fun k => { k with ctlb := mapMod [] w.core (tlbAdd 64 e) k.ctlb } else s
  | _, _ => s

/-- Whether a unit of a core finds an address in its cluster's table alone, which takes it 6 cycles (R358). -/
def clusterOnly (s : State) (w : Who) (va : Nat) : Bool :=
  spaceOf va = some .device && w.agent < 16 && (tlbFind w.ctx va (mapGet [] w.core (s.cluster w.cluster).ctlb)).isNone && (tlbFind w.ctx va (s.cluster w.cluster).tlb).isSome
/-- What happens first where an engine finds one of its addresses in its cluster's table alone: the core's table takes them, and the access comes
6 cycles later (R358). -/
def tableWait (s : State) (w : Who) (vas : List Nat) : Option State := if vas.any (clusterOnly s w) then some (vas.foldl (fun s va => refill s w va) s) else none

/-- Resolves an address (R73, R356): the windows are not translated. -/
def place (s : State) (w : Who) (va : Nat) (write fetch : Bool) : Got Place :=
  match spaceOf va with
  | none => .trap 0x10 none s
  | some .core => .ok ⟨coreBase w.core + (va - 0x000FFFFFFFF80000), false, 0, .core⟩ s
  | some .cluster => .ok ⟨clusterBase w.cluster + (va - 0x000FFFFFFF000000), false, 0, .cluster⟩ s
  | some .device =>
    match translate s w va write fetch with
    | .ok pa relax extra => .ok ⟨pa, relax, extra, .device⟩ (refill s w va)
    | .trap c level => .trap c (if c = 0x19 then some (level + 16) else refusedAt va) s
    | .miss => .miss va write fetch

/-- The refusal of a read that would consume poison (R367). -/
def poisonCause (pa : Nat) : Nat := if pa < 2 ^ 40 then 0x53 else 0x54

/-- INFO of a record whose cause a walk gave (R362): the level, and whether to write or to fetch. -/
def walkInfo (level : Nat) (write fetch : Bool) : Nat := level + (if write then 8 else 0) + if fetch then 16 else 0

/-- Whether the bytes a read touches are poisoned. -/
def rangePoisoned (s : State) (pa n : Nat) : Bool :=
  !s.poison.isEmpty && (List.range ((pa + n - 1) / 16 - pa / 16 + 1)).any fun i => isPoisoned s (16 * (pa / 16 + i))

/-- A non-atomic read of n bytes within one sector by an engine: checked, refused on poison, stalled by a watermark. -/
def readEng (s : State) (w : Who) (va n cls : Nat) : Got (Nat × Place) :=
  (place s w va false false).bind fun p s =>
    if watermarkStall s w p.pa n then .stall (stallMark s w p.pa n)
    else if rangePoisoned s p.pa n then .trap (poisonCause p.pa) none s
    else
      (if p.relax then .ok () s else raceCheck s w va p.pa cls false).bind fun _ s => .ok (memNat s.mem p.pa n, p) s

/-- A non-atomic write of n bytes within one sector by an engine: it sets full-empty bits in core memory (R76). -/
def writeEng (s : State) (w : Who) (va n v cls : Nat) : Got Place :=
  (place s w va true false).bind fun p s =>
    if watermarkStall s w p.pa n then .stall (stallMark s w p.pa n)
    else
      (if p.relax then .ok () s else raceCheck s w va p.pa cls true).bind fun _ s =>
        let s := shadowWrite (pokeBytes s w p.pa (natBytes v n) false) w p.pa cls false p.relax
        .ok p (setFullRange s p.pa n (fun _ => false) (some (relOf w.id (raceGet s w))))

/-- An atomic write of n bytes by an engine (R91, R92): neither checked nor recorded in the shadow (R111, R114). -/
def writeAtomic (s : State) (w : Who) (va n v : Nat) : Got Unit :=
  (place s w va true false).bind fun p s =>
    if watermarkStall s w p.pa n then .stall (stallMark s w p.pa n)
    else
      let s := pokeBytes s w p.pa (natBytes v n) false
      .ok () (setFullRange s p.pa n (fun _ => false) (some (relOf w.id (raceGet s w))))

/-- The line that the cluster cache gives S (R84, R104): a held line may be stale, and a free value says whether it is
served then (log entry 4). Gives the 64 bytes and whether it hit. -/
def cacheLine (s : State) (k line : Nat) : (List Byte × Bool) × State :=
  let u := s.cluster k
  let fresh := memBytes s.mem (line * 64) 64
  let keep (s : State) : State := s.modCluster k fun u =>
    let m := mapSet line fresh u.cache
    { u with cache := if 16384 < m.length then m.drop 1 else m }
  match mapFind line u.cache with
  | none => ((fresh, false), keep s)
  | some old =>
    if old = fresh || rangePoisoned s (line * 64) 64 then ((fresh, true), if old = fresh then s else keep s)
    else
      let (i, s) := s.takeFree
      if Config.staleHit i then ((old, true), s) else ((fresh, false), keep s)

/-- The little-endian number of a list of bytes. -/
def bytesNat : List Byte → Nat
  | [] => 0
  | b :: r => b.toNat + 256 * bytesNat r

/-- What a fence or an acquire of a scope does to a cluster's cached lines (R104 to R108): at die scope or wider all of them go;
at a narrower scope those that a write has overtaken. -/
def dropCache (s : State) (k scope : Nat) : State :=
  s.modCluster k fun u => { u with cache := if 2 ≤ scope then [] else u.cache.filter fun e => e.2 = memBytes s.mem (e.1 * 64) 64 }

end Sys2Proof.Machine
end

