-- ==== Sys2Proof/Machine/Ops.lean ====
section
/-! DEFINITION. The shared operations of a strand and its engines: registers, taking a trap and returning from one,
fault records, releases and acquires, tokens and the barrier network, retirement of scalar instructions and
completion of engine entries. -/
namespace Sys2Proof.Machine

/-! ### Scalar registers and predicates (R172) -/

/-- A scalar register; `s0` reads zero. -/
def SUnit.reg (u : SUnit) (r : Nat) : W64 := if r = 0 then 0 else mapGet 0 r u.x
/-- Writes a scalar register; `s0` discards the write. -/
def SUnit.setReg (u : SUnit) (r : Nat) (v : W64) : SUnit := if r = 0 then u else { u with x := mapPut 0 r v u.x }
/-- A predicate; `p0` reads true. -/
def SUnit.pred (u : SUnit) (n : Nat) : Bool := n = 0 || u.p.getLsbD n
/-- Writes a predicate; `p0` discards the write. -/
def SUnit.setPred (u : SUnit) (n : Nat) (v : Bool) : SUnit :=
  if n = 0 then u else { u with p := if v then u.p ||| (1#8 <<< n) else u.p &&& ~~~(1#8 <<< n) }
/-- A result that a dependent instruction can use after some cycles (R24, R208). -/
def SUnit.result (u : SUnit) (cy r : Nat) (v : W64) (lat : Nat) : SUnit :=
  if r = 0 then u else { u.setReg r v with ready := mapSet r (cy + lat) u.ready }
def SUnit.resultPred (u : SUnit) (cy n : Nat) (v : Bool) (lat : Nat) : SUnit :=
  if n = 0 then u else { u.setPred n v with ready := mapSet (32 + n) (cy + lat) u.ready }

/-- A result whose way leads out of the domain too (R351). -/
def SUnit.resultLat (u : SUnit) (cy now r : Nat) (v : W64) (l : Lat) : SUnit :=
  if r = 0 then u else { u.result cy r v l.dom with far := mapSet r (now + l.far) u.far }

/-- A time that begins now for a core ends at this moment, and whether such a moment has come (R351). -/
def Core.after (k : Core) (now : Nat) (l : Lat) : Lat := ⟨k.cy + l.dom, now + l.far⟩
def Lat.over (d : Lat) (cy now : Nat) : Bool := decide (d.dom ≤ cy) && decide (d.far ≤ now)
/-- One time after another. -/
def Lat.add (a b : Lat) : Lat := ⟨a.dom + b.dom, a.far + b.far⟩

/-- Reads a register of the current strand. -/
def State.x (s : State) (r : BitVec 5) : W64 := s.me.su.reg r.toNat
def State.pred (s : State) (n : BitVec 3) : Bool := s.me.su.pred n.toNat
/-- Writes a result of the current strand, usable after the given cycles. -/
def State.setX (s : State) (r : BitVec 5) (v : W64) (lat : Nat) : State :=
  s.modMe fun k => { k with su := k.su.result k.cy r.toNat v lat }
def State.setP (s : State) (n : BitVec 3) (v : Bool) (lat : Nat) : State :=
  s.modMe fun k => { k with su := k.su.resultPred k.cy n.toNat v lat }
def State.setLat (s : State) (r : BitVec 5) (v : W64) (l : Lat) : State :=
  s.modMe fun k => { k with su := k.su.resultLat k.cy s.now r.toNat v l }
/-- An access of the current strand that has performed after the given time (R188, R204). -/
def State.performs (s : State) (l : Lat) : State :=
  s.modMe fun k => { k with su := { k.su with performed := max k.su.performed (k.cy + l.dom), farDone := max k.su.farDone (s.now + l.far) } }
/-- The next instruction of the current strand issues no earlier than this many pulses from now (R208, R351). -/
def State.holdsFar (s : State) (n : Nat) : State := s.modMe fun k => { k with su := { k.su with farNext := s.now + n } }
/-- Whether every access of the current strand has performed. -/
def State.allPerformed (s : State) : Bool := decide (s.me.su.performed ≤ s.me.cy) && decide (s.me.su.farDone ≤ s.now)

/-- The context of the strand on a core. -/
def State.ctxOf (s : State) (c : Nat) : Ctx := s.ctx (s.core c).ctx

/-! ### Fault records (R361, R362) -/

/-- Low 32 bits of the cycle a record names: a cluster unit's domain cycle. -/
def cycleOf (s : State) (k : Nat) : W32 := BitVec.ofNat 32 (s.cluster k).dcy

/-- Puts a record into the queue of records to be written on a die (R362). -/
def postRecord (s : State) (die : Nat) (r : FRec) : State := s.modDie die fun d => { d with queue := d.queue ++ [r] }

/-- A record of a unit of a core. `unit` is the code of R362, `agent` the engine number that stops. -/
def coreRecord (s : State) (c unit cause kind : Nat) (addr info : W64) (agent : Nat) (after : Bool) : FRec :=
  { seq := 0, core := c, unit := unit, cause := cause, ctx := (s.core c).ctx, kind := kind, addr := addr
    info := info, cycle := cycleOf s (clusterOf c), owner := c, agent := agent, after := after }

/-- A record of an event that stops nothing (R361). -/
def postEvent (s : State) (die core unit cause ctx kind : Nat) (addr info : W64) : State :=
  postRecord s die { seq := 0, core := core, unit := unit, cause := cause, ctx := ctx, kind := kind, addr := addr
                     info := info, cycle := if core < 1280 then cycleOf s (clusterOf core) else BitVec.ofNat 32 s.now, owner := core, agent := 99, after := false }

/-- A record of the management event log (R388): seconds, kind, data; the newest first, 65,536 deep. -/
def logEvent (s : State) (kind data : Nat) : State :=
  { s with sys := { s.sys with log := (((s.now - s.sys.powerAt) / Config.pulsesPerSecond, kind, data) :: s.sys.log).take 65536 } }

/-! ### Detaching (R136) -/

/-- A bound core leaves its group: its decoded instructions are dropped, its open vote is withdrawn. -/
def detachCore (s : State) (c : Nat) : State :=
  let n := (s.cluster (clusterOf c)).fe.count
  s.modPr c fun p => if p.bound then { p with bound := false, ibuf := [], vote := none, mark := n } else { p with vote := none }

/-! ### Taking a trap, and returning from one (R322, R323, R361) -/

/-- The handler entry of R322: CTX.EPC, CTX.CAUSE with SWCODE, INH, and the continuation at CTX.TVEC. The core is detached, so its
next instruction issues two cycles later at the earliest (R131). -/
def enterHandler (s : State) (c cause sw : Nat) : State :=
  let tvec := (s.ctxOf c).tvec
  s.modCore c fun k =>
    { k with su := { k.su with epc := k.su.pc, cause := BitVec.ofNat 64 (sw * 2 ^ 32 + cause), inh := true, pc := tvec
                               wait := .idle, next := k.cy + 2, steps := 0, bm := [] } }

/-- A trap or suspension of S that goes to system software (R361): S stops until the record is acknowledged. -/
def reportS (s : State) (c cause kind sw : Nat) (addr : W64) (info : Option Nat) : State :=
  let k := s.core c
  let i := recordInfo cause info (BitVec.ofNat 64 (k.su.word.toNat + sw * 2 ^ 32))
  let s := postRecord s (dieOf c) (coreRecord s c 0 cause kind (recordAddr info addr) i 0 false)
  s.modS c fun u => { u with wait := .reporting }

/-- A trap raised by S: it detaches the core (R136), then enters the strand's handler or is reported (R322, R361). -/
def trapS (s : State) (c cause sw : Nat) (info : Option Nat) : State :=
  let s := detachCore s c
  if (s.ctxOf c).tven && !(s.core c).su.inh then enterHandler s c cause sw
  else reportS s c cause 0 sw (s.core c).su.pc info

/-- The return of R323. -/
def returnFromHandler (s : State) (c : Nat) : State :=
  s.modS c fun u => { u with inh := false, pc := u.epc }

/-! ### Traps of engines -/

/-- How far behind its head an engine's next entry stands: V in a loop runs the body entries (R232). -/
def headSkip (k : Core) (e : Nat) : Nat := if e = 4 && k.v.loop.getLsbD 31 then 1 + k.v.iter.toNat / 2 ^ 26 % 64 else 0
/-- Core-window address of an engine's next entry. -/
def entryAddr (k : Core) (e : Nat) : W64 :=
  let r := (k.engine e).ring
  BitVec.ofNat 64 (0x000FFFFFFFF80000 + r.base + 8 * ((r.head + headSkip k e) % r.size))

/-- A trap or suspension of an engine (R171, R361): it starts nothing further until the record is acknowledged. DESIGN CHOICE (log entry 60): a
bound core stays bound, for R136 speaks of its S. -/
def stopEngine (s : State) (c e cause kind : Nat) (addr : W64) (info : Option Nat) (after : Bool) : State :=
  let k := s.core c
  let s := postRecord s (dieOf c) (coreRecord s c e cause kind (recordAddr info addr) (recordInfo cause info (k.engine e).word) e after)
  s.modEng c e fun g => { g with stop := .reporting }
def trapEngine (s : State) (c e cause : Nat) (info : Option Nat) : State :=
  stopEngine s c e cause 0 (entryAddr (s.core c) e) info false

/-! ### Releases and acquires of a core's units (R106, R113) -/

/-- What a unit of a core releases now. -/
def releaseOf (s : State) (c e : Nat) : Rel := relOf (unitId c (agentOf e)) (raceGet s (whoCore s c e))
/-- A unit of a core acquires a release at a scope. S then reads no cached line that a write has overtaken (R105, R108). -/
def acquireBy (s : State) (c e scope : Nat) (r : Rel) : State :=
  let w := whoCore s c e
  let s := racePut s w (if pseudo w.agent then gather scope r (raceGet s w) else acquire s.now scope r (raceGet s w))
  if e = 0 then dropCache s (clusterOf c) scope else s
/-- The unit's interval number rises (R112), with the classes of the mask released. -/
def bumpMasked (s : State) (c e : Nat) (mask : BitVec 16) : State :=
  let w := whoCore s c e
  racePut s w (bump mask (raceGet s w))
/-- The unit's interval number rises after a release of everything. -/
def bumpUnit (s : State) (c e : Nat) : State := bumpMasked s c e 0xFFFF
/-- S releases everything: the release, and the state after it (R112). -/
def releaseS (s : State) (c : Nat) : Rel × State := (releaseOf s c 0, bumpUnit s c 0)

/-- What all units of a core have accessed in their current intervals, as releases (R345). -/
def coreRels (s : State) (c : Nat) : List Rel := (s.core c).race.map fun e => relOf (unitId c e.1) e.2
/-- The intervals of all units of a core rise. -/
def bumpCore (s : State) (c : Nat) : State := s.modCore c fun k => { k with race := k.race.map fun e => (e.1, bump 0xFFFF e.2) }

/-! ### Tokens and the barrier network (R18 to R20, R33) -/

def tokKey (frm dest : Nat) : Nat := 8 * frm + dest
def Core.tokens (k : Core) (frm dest : Nat) : List Tok := mapGet [] (tokKey frm dest) k.q.tok

/-- Marks progress of a core's strand (R353). -/
def progress (s : State) (c : Nat) : State := s.modWd c fun w => { w with prog := true }

/-- Pushes a token, which can be popped two cycles later (R33); none while the queue holds 15 (R18). Pushes to a
frozen core succeed whatever the count (R326). -/
def pushTok (s : State) (c frm dest : Nat) (r : Rel) : Option State :=
  let k := s.core c
  let q := k.tokens frm dest
  if 15 ≤ q.length ∧ k.mir.st = .running then none
  else some (progress (s.modQ c fun x => { x with tok := mapSet (tokKey frm dest) (q ++ [⟨r, k.cy + 2⟩]) x.tok }) c)

/-- The oldest token of a queue, when it can be popped. -/
def tokAvail (k : Core) (frm dest : Nat) : Option Tok :=
  match k.tokens frm dest with
  | [] => none
  | t :: _ => if t.ready ≤ k.cy then some t else none
def popTok (s : State) (c frm dest : Nat) : State :=
  progress (s.modQ c fun x => { x with tok := mapMod [] (tokKey frm dest) (fun l => l.drop 1) x.tok }) c
def netAvail (k : Core) : Option Tok :=
  match k.q.net with
  | [] => none
  | t :: _ => if t.ready ≤ k.cy then some t else none
def popNet (s : State) (c : Nat) : State := progress (s.modQ c fun x => { x with net := x.net.drop 1 }) c

/-- The key under which the model remembers a SAVE: source core, context and FCY (log entry 18). -/
def saveKey (src ctx fcy : Nat) : Nat := src * 2 ^ 48 + ctx * 2 ^ 32 + fcy
/-- A strand's name: the core that holds it, or for a saved strand whose core has taken another one 2^64 + the key of its SAVE (R334). -/
def awayName (k : Core) (c : Nat) : Nat := 2 ^ 64 + saveKey c k.ctx k.mir.fcy.toNat
/-- The core that holds a strand, or held it when it was saved. -/
def strandCore (i : Nat) : Nat := if i < 2 ^ 64 then i else (i - 2 ^ 64) / 2 ^ 48
/-- What the machine holds of a strand, by its name. -/
def State.strand (s : State) (i : Nat) : Core := if i < 2 ^ 64 then s.core i else mapGet Core.reset i s.away
def State.modStrandQ (s : State) (i : Nat) (f : Queues → Queues) : State :=
  if i < 2 ^ 64 then s.modQ i f else { s with away := s.away.map fun e => if e.1 = i then (e.1, { e.2 with q := f e.2.q }) else e }
/-- The displaced saved strands of a kernel entry. -/
def awayOf (s : State) (kern : Nat) : List Nat := (s.away.filter fun e => e.2.kern = kern).map (·.1)

/-- The strands of the given kernel entry that the cores of a cluster hold, or held when they were saved: the members of its network
(R20). -/
def members (s : State) (k kern : Nat) : List Nat :=
  ((((List.range 8).map (k * 8 + ·)).filter fun c => (s.core c).mir.st ≠ .idle && (s.core c).kern = kern) ++
    (awayOf s kern).filter fun i => clusterOf (strandCore i) = k).eraseDups

/-- Several releases as one. -/
def joinRels (l : List Rel) : Rel :=
  { unit := Rel.none.unit, ivl := 0, tab := l.flatMap (Rel.ents 0) }

/-- Whether every member of a core's network has arrived for the current phase. -/
def phaseReady (s : State) (k kern : Nat) : Bool :=
  let m := members s k kern
  !m.isEmpty && m.all fun c => !(s.strand c).q.arrivals.isEmpty

/-- Completes a phase in which every member has arrived: it takes one arrival of each, and its tokens are pushed six cycles after
the last arrival (R20, R33). DESIGN CHOICE (log entry 64): where a leave completes the phase, its tokens come six cycles after the leave. -/
def netPhase (s : State) (k kern : Nat) : State :=
  let m := members s k kern
  let rel := joinRels (m.filterMap fun c => (s.strand c).q.arrivals.head?)
  let s := m.foldl (fun s c => s.modStrandQ c fun q => { q with arrivals := q.arrivals.drop 1 }) s
  s.modCluster k fun u => { u with phases := u.phases ++ [⟨kern, u.dcy + 6, m, rel⟩] }

/-- Completes the phases in which every member has arrived: one at an arrival, perhaps more when a member leaves (R20). -/
def netCheckGo (s : State) (k kern : Nat) : Nat → State
  | 0 => s
  | f + 1 => if phaseReady s k kern then netCheckGo (netPhase s k kern) k kern f else s
def netCheck (s : State) (k kern : Nat) : State :=
  netCheckGo s k kern (((members s k kern).map fun c => (s.strand c).q.arrivals.length).foldl max 0)

/-- An arrival of a core at its cluster's network (R20). -/
def netArrive (s : State) (c : Nat) (r : Rel) : State :=
  netCheck (progress (s.modQ c fun q => { q with arrivals := q.arrivals ++ [r] }) c) (clusterOf c) (s.core c).kern

/-- A member has left: the phases on their way push nothing to it, and the phase may complete (R20). -/
def netLeave (s : State) (c k kern : Nat) : State :=
  netCheck (s.modCluster k fun u => { u with phases := u.phases.map fun p => { p with members := p.members.filter (· ≠ c) } }) k kern

/-- Pushes the signal tokens of a mask, holding those whose queue is full (R18); pushes to a frozen core succeed (R326). -/
def signalGo (s : State) (c e : Nat) (mask : BitVec 8) (r : Rel) : List Nat → State
  | [] => s
  | b :: l =>
    if mask.getLsbD b then
      if b = 7 then signalGo (netArrive s c r) c e mask r l
      else
        match (if (s.core c).mir.st = .running && ((s.core c).engine e).held.any (fun h => h.dest = b) then none else pushTok s c e b r) with
        | some s' => signalGo s' c e mask r l
        | none => signalGo (s.modEng c e fun g => { g with held := g.held ++ [⟨b, r⟩] }) c e mask r l
    else signalGo s c e mask r l
def signalTokens (s : State) (c e : Nat) (mask : BitVec 8) (r : Rel) : State := signalGo s c e mask r [0, 1, 2, 3, 4, 5, 6, 7]

/-- An entry completes (R18, R112): it releases its effects to what it signals, and its unit's interval rises. -/
def completeEntry (s : State) (c e : Nat) (mask : BitVec 8) : State :=
  bumpUnit (signalTokens s c e mask (releaseOf s c e)) c e

/-- Whether an engine can start an entry with a wait mask: every token can be popped (R18), and the engine holds no push of an earlier
entry (R18, R23). -/
def waitReady (k : Core) (e : Nat) (mask : BitVec 8) : Bool :=
  (k.engine e).held.isEmpty && (e ≠ 4 || k.v.push.isEmpty) && ([0, 1, 2, 3, 4, 5, 6, 7] : List Nat).all fun b =>
    !mask.getLsbD b || (if b = 7 then (netAvail k).isSome else (tokAvail k b e).isSome)

/-- Pops one token from each queue named, and acquires what they release (R18, R106). -/
def popWaitGo (s : State) (c e : Nat) (mask : BitVec 8) : List Nat → State
  | [] => s
  | b :: l =>
    if mask.getLsbD b then
      let k := s.core c
      let s := if b = 7 then
          match netAvail k with
          | some t => acquireBy (popNet s c) c e 1 t.rel
          | none => s
        else
          match tokAvail k b e with
          | some t => acquireBy (popTok s c b e) c e 0 t.rel
          | none => s
      popWaitGo s c e mask l
    else popWaitGo s c e mask l
def popWait (s : State) (c e : Nat) (mask : BitVec 8) : State := popWaitGo s c e mask [0, 1, 2, 3, 4, 5, 6, 7]

/-! ### The control-register window (R383) -/

/-- Whether the window answers more than SYS.BOOT: stage 4 has begun (R383). -/
def windowOpen (y : Sys) : Bool := y.stage = 4 || y.stage = 5 || (y.stage = 7 && y.reason = 4)
/-- A write to a register of the window: it is ignored until stage 4 begins (R383). -/
def windowed (s : State) (o : Host.Outcome State Fault Refusal) : Host.Outcome State Fault Refusal := if windowOpen s.sys then o else .next s

/-! ### Retirement of scalar instructions (R173, R182, R353) -/

/-- What an instruction is to the spin rule of R182. -/
inductive IKind where
  | plain
  | load (addr value : W64)
  | other
  deriving DecidableEq, Repr

/-- What a scalar instruction's own effect gives: a state with the address that follows (none: pc + 4) and the cycles
to the next issue, a trap, a wait, or a translation to be walked. -/
inductive SRes where
  | ok (s : State) (next : Option W64) (lat : Nat) (k : IKind)
  | trap (cause sw : Nat) (info : Option Nat) (s : State)
  | wait (w : SWait) (s : State)
  | miss (va : Nat) (write fetch : Bool) (s : State)

/-- Takes the issued instruction out of a bound core's buffer. -/
def dropIssued (s : State) (c : Nat) : State :=
  s.modPr c fun p => if p.bound then { p with ibuf := p.ibuf.drop 1 } else p

/-- Notes an instruction for the spin rule. -/
def noteSpin (k : IKind) (r : SpinRec) : SpinRec :=
  match k with
  | .plain => r
  | .load a v => { r with loads := r.loads ++ [(a, v)] }
  | .other => { r with other := true }

/-- An instruction has issued: the pc moves on, and the next issues after the given cycles, at least two on a detached
core (R131). `counts` says whether it is progress for the watchdog (R353). -/
def retire (s : State) (c : Nat) (next : Option W64) (lat : Nat) (k : IKind) (counts : Bool) : State :=
  let s := dropIssued s c
  s.modCore c fun x =>
    let tainted := x.wd.tainted && match k with
      | .plain => true
      | .load _ v => x.wd.last.map (·.2) = some v
      | .other => false
    { x with su := { x.su with pc := next.getD (x.su.pc + 4), next := x.cy + (if x.pr.bound then lat else max lat 2), wait := .idle, steps := 0, bm := [], spin := noteSpin k x.su.spin }
             wd := { x.wd with prog := x.wd.prog || (counts && !tainted), tainted := tainted } }

/-- S waits. A pool instruction has issued: the next one follows it as any other does, two cycles later at the earliest on a detached core
(R131, R154). DESIGN CHOICE (log entry 77): it keeps its entry of the decoded-instruction buffer until its result has come, so its group issues at most 31
instructions beyond it (R126). -/
def waitAt (s : State) (c : Nat) (w : SWait) : State :=
  s.modCore c fun k => { k with su := { k.su with wait := w, next := match w with
    | .pool _ _ _ _ => k.cy + if k.pr.bound then 1 else 2
    | _ => k.su.next } }

/-- Runs a scalar instruction under its guard (R173): a false guard has no effect and takes one cycle. -/
def scalar (g : BitVec 3) (body : State → SRes) (s : State) : State :=
  let c := s.cur.1
  if s.pred g then
    match body s with
    | .ok s next lat k => retire s c next lat k true
    | .trap cause sw info s => trapS s c cause sw info
    | .wait w s => waitAt s c w
    | .miss va wr fe s => (startWalk s (whoCore s c 0) va wr fe (c, 0)).modS c fun u => { u with wait := .walk }
  else retire s c none 1 .plain false

/-- An instruction that always completes, with the cycles to the next issue. -/
def plainOk (s : State) : SRes := .ok s none 1 .plain

/-- A memory access of S in a scalar instruction: passes an access's other outcomes on. -/
def Got.toS {α : Type} (g : Got α) (s0 : State) (f : α → State → SRes) : SRes :=
  match g with
  | .ok a s => f a s
  | .trap c i s => .trap c 0 i s
  | .stall m => .wait .stalled (noteStall s0 m)
  | .miss a w x => .miss a w x s0

/-! ### Engine entries -/

/-- Words of an engine entry that have been retired: the head moves, and a static ring clears the granules it leaves
(R15). The head also leaves the granule in which the loader's image ends, as it passes its last word (log entry 12). -/
def advanceHead (s : State) (c e n : Nat) : State :=
  let r := ((s.core c).engine e).ring
  let head := (r.head + n) % (2 * r.size)
  let words := (List.range n).foldl (fun m i => mapDel ((r.head + i) % (2 * r.size)) m) r.words
  let s := s.modEng c e fun g => { g with ring := { g.ring with head := head, words := words, forkRel := none, image := r.image - n } }
  if r.isStatic then
    (List.range n).foldl (fun s i =>
      let off := r.base + 8 * ((r.head + i) % r.size)
      let nxt := r.base + 8 * ((r.head + i + 1) % r.size)
      if off / 16 ≠ nxt / 16 ∨ i + 1 = r.image then clearFull s (granKey c off) else s) s
  else s

/-- Occupied words of a fed ring (R13). -/
def Ring.occupied (r : Ring) : Nat := (r.tail + 2 * r.size - r.head) % (2 * r.size)

/-- Whether the n words that stand i places behind the head are present (R14, R15), and for a fed ring issuable by now (R33). -/
def wordsAt (s : State) (c e i n : Nat) : Bool :=
  let k := s.core c
  let r := (k.engine e).ring
  if r.isStatic then (List.range n).all fun j => isFull s (granKey c (r.base + 8 * ((r.head + i + j) % r.size)))
  else i + n ≤ r.occupied && (List.range n).all fun j =>
    match mapFind ((r.head + i + j) % (2 * r.size)) r.words with
    | some w => w.ready ≤ k.cy
    | none => true
/-- Whether n words from the head are present. -/
def wordsPresent (s : State) (c e n : Nat) : Bool := wordsAt s c e 0 n

/-- Whether a watermark holds up the n words that an engine reads i places behind its head (R90). -/
def ringStall (s : State) (c e i n : Nat) : Option StallMark :=
  let r := ((s.core c).engine e).ring
  (List.range n).findSome? fun j => stallMark s (whoCore s c e) (coreBase c + r.base + 8 * ((r.head + i + j) % r.size)) 8

/-- The word i places behind the head. -/
def ringWord (s : State) (c e i : Nat) : W64 :=
  let r := ((s.core c).engine e).ring
  BitVec.ofNat 64 (memNat s.mem (coreBase c + r.base + 8 * ((r.head + i) % r.size)) 8)

/-- Whether n words from the head, i places behind it, hold poison: reading them is refused (R367). -/
def ringPoisoned (s : State) (c e i n : Nat) : Bool :=
  let r := ((s.core c).engine e).ring
  !s.poison.isEmpty && (List.range n).any fun j => rangePoisoned s (coreBase c + r.base + 8 * ((r.head + i + j) % r.size)) 8

/-- The map of an engine number (R12, R169, R170). -/
def engineMap (e : Nat) : EngineMap := match e with | 3 => .w | 4 => .v | 5 => .m | 6 => .c | _ => .l
/-- Extension words that a first word asks for. -/
def wordExts (e : Nat) (w : W64) : Nat := (extCount (engineMap e) (cOp w).toNat).getD 0
/-- The words that an entry waits for beside its first (R15, R166): its extension words, and for a `vloop` its body (R230). -/
def entryRest (e : Nat) (w : W64) : Nat := wordExts e w + if e = 4 && cOp w = 4 then w.toNat / 2 ^ 33 % 128 else 0

/-- The releases an entry of n words acquires when it starts: enq of its words, the fork, and for a static ring the
latest setters of its granules (R106). -/
def entryRels (s : State) (c e n : Nat) : List Rel :=
  let r := ((s.core c).engine e).ring
  let own := (List.range n).filterMap fun i => (mapFind ((r.head + i) % (2 * r.size)) r.words).map (·.rel)
  let set := if r.isStatic then (List.range n).filterMap fun i => ((mapFind (granKey c (r.base + 8 * ((r.head + i) % r.size))) s.full).getD none) else []
  r.forkRel.toList ++ own ++ set

/-- The entry starts: acquires what its words carry and pops its wait tokens (R18, R106). -/
def startEntry (s : State) (c e n : Nat) (wait : BitVec 8) : State :=
  popWait ((entryRels s c e n).foldl (fun s r => acquireBy s c e 0 r) s) c e wait

/-- The mode a rounding code gives at issue (R62, R64). -/
def roundMode (k : Core) (e : Nat) (code : BitVec 3) : Nat := if code = 0 then mapGet 1 e k.rm else code.toNat

end Sys2Proof.Machine
end

