-- ==== Sys2Proof/Machine/Operands.lean ====
section
/-! DEFINITION. Scalar operand forms (R157, R175): the register-register, register-immediate and long-immediate forms
of the integer group, the forms of compares and predicates, the address of a MEM access, and what a compare decides. -/
namespace Sys2Proof.Machine

/-! ### Immediates (R157) -/

def sext12 (i : BitVec 12) : W64 := i.signExtend 64
def zext12 (i : BitVec 12) : W64 := i.setWidth 64
def sext17 (i : BitVec 17) : W64 := i.signExtend 64

/-- Address of a MEM access of w bytes (R157): off8 is scaled by the width. -/
def memAddr (s : State) (a : BitVec 5) (o : BitVec 8) (w : Nat) : W64 := s.x a + BitVec.ofNat 64 (o.toNat * w)

/-! ### Forms (R175, R177, R178) -/

/-- rd := f(ra, rb), usable after the given cycles (R176, R208). -/
def formRR (g : BitVec 3) (d a b : BitVec 5) (lat : Nat) (f : W64 → W64 → W64) (s : State) : State :=
  scalar g (fun s => plainOk (s.setX d (f (s.x a) (s.x b)) lat)) s
/-- rd := f(ra). -/
def formR (g : BitVec 3) (d a : BitVec 5) (lat : Nat) (f : W64 → W64) (s : State) : State :=
  scalar g (fun s => plainOk (s.setX d (f (s.x a)) lat)) s
/-- rd := f(ra, immediate). -/
def formRI (g : BitVec 3) (d a : BitVec 5) (imm : W64) (lat : Nat) (f : W64 → W64 → W64) (s : State) : State :=
  scalar g (fun s => plainOk (s.setX d (f (s.x a) imm) lat)) s
/-- pd := f(ra, rb). -/
def formCmp (g p : BitVec 3) (a b : BitVec 5) (f : W64 → W64 → Bool) (s : State) : State :=
  scalar g (fun s => plainOk (s.setP p (f (s.x a) (s.x b)) 1)) s
/-- pd := f(ra, sign-extended immediate). -/
def formCmpI (g p : BitVec 3) (a : BitVec 5) (i : BitVec 12) (f : W64 → W64 → Bool) (s : State) : State :=
  scalar g (fun s => plainOk (s.setP p (f (s.x a) (sext12 i)) 1)) s
/-- pd := f(pa, pb). -/
def formPred (g p q r : BitVec 3) (f : Bool → Bool → Bool) (s : State) : State :=
  scalar g (fun s => plainOk (s.setP p (f (s.pred q) (s.pred r)) 1)) s

/-! ### Integer functions (R176) -/

/-- Bits 127 to 64 of the exact signed and unsigned products. -/
def mulHi (a b : W64) : W64 := BitVec.ofInt 64 (a.toInt * b.toInt / (2 : Int) ^ 64)
def mulHiN (a b : W64) : W64 := BitVec.ofNat 64 (a.toNat * b.toNat / 2 ^ 64)
def minS (a b : W64) : W64 := if b.slt a then b else a
def maxS (a b : W64) : W64 := if a.slt b then b else a
def minN (a b : W64) : W64 := if b.ult a then b else a
def maxN (a b : W64) : W64 := if a.ult b then b else a
/-- Shifts by the low six bits of the second operand. -/
def shl (a b : W64) : W64 := a <<< (b.toNat % 64)
def shrL (a b : W64) : W64 := a >>> (b.toNat % 64)
def shrA (a b : W64) : W64 := a.sshiftRight (b.toNat % 64)

end Sys2Proof.Machine
end

