-- ==== Sys2Proof/Machine/Integer.lean ====
section
/-! DEFINITION. The meanings of the integer, compare, predicate and selection instructions (R175 to R178). -/
namespace Sys2Proof.Machine

/-- R176. -/
def execAdd (g : BitVec 3) (d a b : BitVec 5) (s : State) : Host.Outcome State Fault Refusal :=
  .next (formRR g d a b 1 ((· + ·)) s)

/-- R176. -/
def execSub (g : BitVec 3) (d a b : BitVec 5) (s : State) : Host.Outcome State Fault Refusal :=
  .next (formRR g d a b 1 ((· - ·)) s)

/-- R176. -/
def execAnd (g : BitVec 3) (d a b : BitVec 5) (s : State) : Host.Outcome State Fault Refusal :=
  .next (formRR g d a b 1 ((· &&& ·)) s)

/-- R176. -/
def execOr (g : BitVec 3) (d a b : BitVec 5) (s : State) : Host.Outcome State Fault Refusal :=
  .next (formRR g d a b 1 ((· ||| ·)) s)

/-- R176. -/
def execXor (g : BitVec 3) (d a b : BitVec 5) (s : State) : Host.Outcome State Fault Refusal :=
  .next (formRR g d a b 1 ((· ^^^ ·)) s)

/-- R176. -/
def execAndn (g : BitVec 3) (d a b : BitVec 5) (s : State) : Host.Outcome State Fault Refusal :=
  .next (formRR g d a b 1 (fun a b => a &&& ~~~b) s)

/-- R176. -/
def execSll (g : BitVec 3) (d a b : BitVec 5) (s : State) : Host.Outcome State Fault Refusal :=
  .next (formRR g d a b 1 (shl) s)

/-- R176. -/
def execSrl (g : BitVec 3) (d a b : BitVec 5) (s : State) : Host.Outcome State Fault Refusal :=
  .next (formRR g d a b 1 (shrL) s)

/-- R176. -/
def execSra (g : BitVec 3) (d a b : BitVec 5) (s : State) : Host.Outcome State Fault Refusal :=
  .next (formRR g d a b 1 (shrA) s)

/-- R176. -/
def execMul (g : BitVec 3) (d a b : BitVec 5) (s : State) : Host.Outcome State Fault Refusal :=
  .next (formRR g d a b 3 ((· * ·)) s)

/-- R176. -/
def execMulh (g : BitVec 3) (d a b : BitVec 5) (s : State) : Host.Outcome State Fault Refusal :=
  .next (formRR g d a b 4 (mulHi) s)

/-- R176. -/
def execMulhn (g : BitVec 3) (d a b : BitVec 5) (s : State) : Host.Outcome State Fault Refusal :=
  .next (formRR g d a b 4 (mulHiN) s)

/-- R176. -/
def execDiv (g : BitVec 3) (d a b : BitVec 5) (s : State) : Host.Outcome State Fault Refusal :=
  .next (formRR g d a b 20 (divS) s)

/-- R176. -/
def execDivn (g : BitVec 3) (d a b : BitVec 5) (s : State) : Host.Outcome State Fault Refusal :=
  .next (formRR g d a b 20 (divU) s)

/-- R176. -/
def execRem (g : BitVec 3) (d a b : BitVec 5) (s : State) : Host.Outcome State Fault Refusal :=
  .next (formRR g d a b 20 (remS) s)

/-- R176. -/
def execRemn (g : BitVec 3) (d a b : BitVec 5) (s : State) : Host.Outcome State Fault Refusal :=
  .next (formRR g d a b 20 (remU) s)

/-- R176. -/
def execMin (g : BitVec 3) (d a b : BitVec 5) (s : State) : Host.Outcome State Fault Refusal :=
  .next (formRR g d a b 1 (minS) s)

/-- R176. -/
def execMax (g : BitVec 3) (d a b : BitVec 5) (s : State) : Host.Outcome State Fault Refusal :=
  .next (formRR g d a b 1 (maxS) s)

/-- R176. -/
def execMinn (g : BitVec 3) (d a b : BitVec 5) (s : State) : Host.Outcome State Fault Refusal :=
  .next (formRR g d a b 1 (minN) s)

/-- R176. -/
def execMaxn (g : BitVec 3) (d a b : BitVec 5) (s : State) : Host.Outcome State Fault Refusal :=
  .next (formRR g d a b 1 (maxN) s)

/-- R176. -/
def execClmul (g : BitVec 3) (d a b : BitVec 5) (s : State) : Host.Outcome State Fault Refusal :=
  .next (formRR g d a b 3 (fun a b => BitVec.ofNat 64 (clmulW a b)) s)

/-- R176. -/
def execClmulh (g : BitVec 3) (d a b : BitVec 5) (s : State) : Host.Outcome State Fault Refusal :=
  .next (formRR g d a b 3 (fun a b => BitVec.ofNat 64 (clmulW a b / 2 ^ 64)) s)

/-- R176. -/
def execSh1add (g : BitVec 3) (d a b : BitVec 5) (s : State) : Host.Outcome State Fault Refusal :=
  .next (formRR g d a b 1 (fun a b => (a <<< 1) + b) s)

/-- R176. -/
def execSh2add (g : BitVec 3) (d a b : BitVec 5) (s : State) : Host.Outcome State Fault Refusal :=
  .next (formRR g d a b 1 (fun a b => (a <<< 2) + b) s)

/-- R176. -/
def execSh3add (g : BitVec 3) (d a b : BitVec 5) (s : State) : Host.Outcome State Fault Refusal :=
  .next (formRR g d a b 1 (fun a b => (a <<< 3) + b) s)

/-- R176. -/
def execSh4add (g : BitVec 3) (d a b : BitVec 5) (s : State) : Host.Outcome State Fault Refusal :=
  .next (formRR g d a b 1 (fun a b => (a <<< 4) + b) s)

/-- R176. -/
def execClz (g : BitVec 3) (d a : BitVec 5) (s : State) : Host.Outcome State Fault Refusal :=
  .next (formR g d a 1 (fun a => BitVec.ofNat 64 (clzW a)) s)

/-- R176. -/
def execCtz (g : BitVec 3) (d a : BitVec 5) (s : State) : Host.Outcome State Fault Refusal :=
  .next (formR g d a 1 (fun a => BitVec.ofNat 64 (ctzW a)) s)

/-- R176. -/
def execPopc (g : BitVec 3) (d a : BitVec 5) (s : State) : Host.Outcome State Fault Refusal :=
  .next (formR g d a 1 (fun a => BitVec.ofNat 64 (popW a)) s)

/-- R176, with the immediate as R157 extends it. -/
def execAddi (g : BitVec 3) (d a : BitVec 5) (i : BitVec 12) (s : State) : Host.Outcome State Fault Refusal :=
  .next (formRI g d a (sext12 i) 1 ((· + ·)) s)

/-- R176, with the immediate as R157 extends it. -/
def execMuli (g : BitVec 3) (d a : BitVec 5) (i : BitVec 12) (s : State) : Host.Outcome State Fault Refusal :=
  .next (formRI g d a (sext12 i) 3 ((· * ·)) s)

/-- R176, with the immediate as R157 extends it. -/
def execAndi (g : BitVec 3) (d a : BitVec 5) (i : BitVec 12) (s : State) : Host.Outcome State Fault Refusal :=
  .next (formRI g d a (zext12 i) 1 ((· &&& ·)) s)

/-- R176, with the immediate as R157 extends it. -/
def execOri (g : BitVec 3) (d a : BitVec 5) (i : BitVec 12) (s : State) : Host.Outcome State Fault Refusal :=
  .next (formRI g d a (zext12 i) 1 ((· ||| ·)) s)

/-- R176, with the immediate as R157 extends it. -/
def execXori (g : BitVec 3) (d a : BitVec 5) (i : BitVec 12) (s : State) : Host.Outcome State Fault Refusal :=
  .next (formRI g d a (zext12 i) 1 ((· ^^^ ·)) s)

/-- R176, by the shift amount of R157. -/
def execSlli (g : BitVec 3) (d a : BitVec 5) (i : BitVec 6) (s : State) : Host.Outcome State Fault Refusal :=
  .next (formRI g d a (i.setWidth 64) 1 shl s)

/-- R176, by the shift amount of R157. -/
def execSrli (g : BitVec 3) (d a : BitVec 5) (i : BitVec 6) (s : State) : Host.Outcome State Fault Refusal :=
  .next (formRI g d a (i.setWidth 64) 1 shrL s)

/-- R176, by the shift amount of R157. -/
def execSrai (g : BitVec 3) (d a : BitVec 5) (i : BitVec 6) (s : State) : Host.Outcome State Fault Refusal :=
  .next (formRI g d a (i.setWidth 64) 1 shrA s)

/-- R157, R176: imm17 sign-extended. -/
def execLi (g : BitVec 3) (d : BitVec 5) (i : BitVec 17) (s : State) : Host.Outcome State Fault Refusal :=
  .next (scalar g (fun s => plainOk (s.setX d (sext17 i) 1)) s)

/-- R157, R176. -/
def execLsi (g : BitVec 3) (d : BitVec 5) (i : BitVec 17) (s : State) : Host.Outcome State Fault Refusal :=
  .next (scalar g (fun s => plainOk (s.setX d ((s.x d <<< 17) ||| i.setWidth 64) 1)) s)

/-- R177. -/
def execCmpEq (g p : BitVec 3) (a b : BitVec 5) (s : State) : Host.Outcome State Fault Refusal :=
  .next (formCmp g p a b ((· == ·)) s)

/-- R177. -/
def execCmpNe (g p : BitVec 3) (a b : BitVec 5) (s : State) : Host.Outcome State Fault Refusal :=
  .next (formCmp g p a b ((· != ·)) s)

/-- R177. -/
def execCmpLt (g p : BitVec 3) (a b : BitVec 5) (s : State) : Host.Outcome State Fault Refusal :=
  .next (formCmp g p a b (BitVec.slt) s)

/-- R177. -/
def execCmpGe (g p : BitVec 3) (a b : BitVec 5) (s : State) : Host.Outcome State Fault Refusal :=
  .next (formCmp g p a b (fun a b => !a.slt b) s)

/-- R177. -/
def execCmpLtn (g p : BitVec 3) (a b : BitVec 5) (s : State) : Host.Outcome State Fault Refusal :=
  .next (formCmp g p a b (BitVec.ult) s)

/-- R177. -/
def execCmpGen (g p : BitVec 3) (a b : BitVec 5) (s : State) : Host.Outcome State Fault Refusal :=
  .next (formCmp g p a b (fun a b => !a.ult b) s)

/-- R177. -/
def execCmpiEq (g p : BitVec 3) (a : BitVec 5) (i : BitVec 12) (s : State) : Host.Outcome State Fault Refusal :=
  .next (formCmpI g p a i ((· == ·)) s)

/-- R177. -/
def execCmpiNe (g p : BitVec 3) (a : BitVec 5) (i : BitVec 12) (s : State) : Host.Outcome State Fault Refusal :=
  .next (formCmpI g p a i ((· != ·)) s)

/-- R177. -/
def execCmpiLt (g p : BitVec 3) (a : BitVec 5) (i : BitVec 12) (s : State) : Host.Outcome State Fault Refusal :=
  .next (formCmpI g p a i (BitVec.slt) s)

/-- R177. -/
def execCmpiGe (g p : BitVec 3) (a : BitVec 5) (i : BitVec 12) (s : State) : Host.Outcome State Fault Refusal :=
  .next (formCmpI g p a i (fun a b => !a.slt b) s)

/-- R177. -/
def execCmpiLtn (g p : BitVec 3) (a : BitVec 5) (i : BitVec 12) (s : State) : Host.Outcome State Fault Refusal :=
  .next (formCmpI g p a i (BitVec.ult) s)

/-- R177. -/
def execCmpiGen (g p : BitVec 3) (a : BitVec 5) (i : BitVec 12) (s : State) : Host.Outcome State Fault Refusal :=
  .next (formCmpI g p a i (fun a b => !a.ult b) s)

/-- R178. -/
def execPand (g p q r : BitVec 3) (s : State) : Host.Outcome State Fault Refusal :=
  .next (formPred g p q r ((· && ·)) s)

/-- R178. -/
def execPor (g p q r : BitVec 3) (s : State) : Host.Outcome State Fault Refusal :=
  .next (formPred g p q r ((· || ·)) s)

/-- R178. -/
def execPxor (g p q r : BitVec 3) (s : State) : Host.Outcome State Fault Refusal :=
  .next (formPred g p q r ((· != ·)) s)

/-- R178. -/
def execPandn (g p q r : BitVec 3) (s : State) : Host.Outcome State Fault Refusal :=
  .next (formPred g p q r (fun a b => a && !b) s)

/-- R178. -/
def execPnot (g p q : BitVec 3) (s : State) : Host.Outcome State Fault Refusal :=
  .next (scalar g (fun s => plainOk (s.setP p (!s.pred q) 1)) s)

/-- R178. -/
def execPset (g p : BitVec 3) (a : BitVec 5) (s : State) : Host.Outcome State Fault Refusal :=
  .next (scalar g (fun s => plainOk (s.setP p (s.x a != 0) 1)) s)

/-- R178. -/
def execPget (g : BitVec 3) (d : BitVec 5) (q : BitVec 3) (s : State) : Host.Outcome State Fault Refusal :=
  .next (scalar g (fun s => plainOk (s.setX d (if s.pred q then 1 else 0) 1)) s)

/-- R178. -/
def execSel (g : BitVec 3) (d a b : BitVec 5) (p : BitVec 3) (s : State) : Host.Outcome State Fault Refusal :=
  .next (scalar g (fun s => plainOk (s.setX d (if s.pred p then s.x a else s.x b) 1)) s)

end Sys2Proof.Machine
end

