-- ==== Sys2Proof/Machine/Forms.lean ====
section
/-! DEFINITION. The forms of the engine commands: which fields a command reads and what each may hold (R44, R62, R167,
R168, R210 to R212, R249), and the issue checks 3 to 6 of R171 that follow from them. -/
namespace Sys2Proof.Machine

/-! ### Format V -/

/-- What a field of format V holds (R212): a field that is not read is ignored. -/
inductive VF where
  | off
  | dest
  | src
  | mask                 -- a mask number 0 to 7
  | mask1                -- a mask number 1 to 7
  | lit (lo hi : Nat)
  | kreg                 -- k0 to k15 only
  | vreg (hi : Nat)      -- v0 to v(hi) only
  deriving DecidableEq, Repr

/-- What the round field holds. -/
inductive RF where
  | zero                 -- the command does not round
  | code                 -- a code of R62
  | set                  -- the code that a setrm writes (R63)
  deriving DecidableEq, Repr

/-- A row of the tables of R212 and R249. -/
structure VForm where
  vd : VF
  va : VF
  vb : VF
  vc : VF
  round : RF
  /-- The mod values it allows are 0 to this. -/
  modMax : Nat
  /-- It requires m0 (R211). -/
  m0 : Bool
  deriving DecidableEq, Repr

/-- Check 4 on one field: literals, mask numbers and register ranges (R210). -/
def VF.inRange (f : VF) (n : Nat) : Bool :=
  match f with
  | .off => true
  | .dest => true
  | .src => true
  | .mask => n ≤ 7
  | .mask1 => 1 ≤ n && n ≤ 7
  | .lit lo hi => lo ≤ n && n ≤ hi
  | .kreg => 80 ≤ n && n ≤ 95
  | .vreg hi => n ≤ hi

/-- Check 5 on one field: operand numbers (R44, R210). -/
def VF.operandOk (f : VF) (n : Nat) : Bool :=
  match f with
  | .dest => n ≤ 63 || (72 ≤ n && n ≤ 75) || (96 ≤ n && n ≤ 111)
  | .src => n ≤ 71 || (80 ≤ n && n ≤ 111)
  | _ => true

/-- Whether a number names a store queue. -/
def isSq (n : Nat) : Bool := 72 ≤ n && n ≤ 75
/-- Whether a number names a data queue. -/
def isDq (n : Nat) : Bool := 64 ≤ n && n ≤ 71

/-- Check 6 on a round field (R62, R63). -/
def RF.ok (f : RF) (code : BitVec 3) : Bool :=
  match f with
  | .zero => true
  | .code => code.toNat ≤ 5
  | .set => 1 ≤ code.toNat && code.toNat ≤ 5

/-- Check 4 on a whole word, beside the stage. -/
def VForm.fieldsOk (f : VForm) (w : VWord) : Bool :=
  f.vd.inRange w.vd.toNat && f.va.inRange w.va.toNat && f.vb.inRange w.vb.toNat && f.vc.inRange w.vc.toNat
    && w.mod.toNat ≤ f.modMax && (f.round ≠ .zero || w.round = 0) && (!f.m0 || w.mask = 0)
/-- Check 5 on a whole word. -/
def VForm.operandsOk (f : VForm) (w : VWord) : Bool :=
  f.vd.operandOk w.vd.toNat && f.va.operandOk w.va.toNat && f.vb.operandOk w.vb.toNat && f.vc.operandOk w.vc.toNat

/-- Checks 3 to 6 of R171 on a V entry; `inLoop` says that it lies among the entries of a running loop. -/
def VForm.fault (f : VForm) (inLoop : Bool) (w : VWord) : Option Nat :=
  if w.wait.getLsbD 4 || w.signal.getLsbD 4 then some 0x21
  else if !f.fieldsOk w || (!inLoop && w.stage ≠ 0) then some 0x02
  else if !f.operandsOk w then some 0x03
  else if !f.round.ok w.round then some 0x30
  else none

def fSetrm : VForm := ⟨.off, .off, .off, .off, .set, 0, true⟩
def fEnop : VForm := ⟨.off, .off, .off, .off, .zero, 0, true⟩
/-- `vtos` (R212): mod 0 and 1 read a lane, mod 3 a mask. -/
def fVtos (w : VWord) : VForm :=
  if w.mod.toNat ≤ 1 then ⟨.off, .src, .lit 0 63, .off, .zero, 3, true⟩
  else if w.mod = 3 then ⟨.off, .mask, .off, .off, .zero, 3, true⟩
  else ⟨.off, .off, .off, .off, .zero, 3, true⟩
def fVloop : VForm := ⟨.lit 1 64, .kreg, .off, .off, .zero, 7, true⟩
def fVdefer : VForm := ⟨.off, .src, .src, .src, .zero, 7, false⟩
def fVdrain : VForm := ⟨.vreg 60, .mask1, .lit 0 1, .off, .zero, 7, true⟩
def fVsel : VForm := ⟨.dest, .src, .src, .off, .zero, 0, false⟩
def fMask2 : VForm := ⟨.mask1, .mask, .mask, .off, .zero, 0, false⟩
def fMask1 : VForm := ⟨.mask1, .mask, .off, .off, .zero, 0, false⟩
def fMpop : VForm := ⟨.dest, .mask, .off, .off, .zero, 0, false⟩
def fBin : VForm := ⟨.dest, .src, .src, .off, .zero, 0, false⟩
def fUn : VForm := ⟨.dest, .src, .off, .off, .zero, 0, false⟩
def fBinR : VForm := ⟨.dest, .src, .src, .off, .code, 0, false⟩
def fTerR : VForm := ⟨.dest, .src, .src, .src, .code, 0, false⟩
def fUnR : VForm := ⟨.dest, .src, .off, .off, .code, 0, false⟩
def fCmp : VForm := ⟨.mask1, .src, .src, .off, .zero, 0, false⟩
/-- `vnarrow` (R212, R221): a store-queue destination requires the mask number 0. -/
def fNarrow (w : VWord) : VForm := ⟨.dest, .src, .src, if isSq w.vd.toNat then .lit 0 0 else .mask, .code, 7, true⟩
def fWiden : VForm := ⟨.dest, .src, .src, .off, .zero, 7, false⟩
def fSlide : VForm := ⟨.dest, .src, .src, .lit 0 63, .zero, 0, false⟩
def fBcast : VForm := ⟨.dest, .src, .lit 0 63, .off, .zero, 0, false⟩
def fMov : VForm := ⟨.dest, .src, .off, .off, .zero, 1, false⟩
def fRedF32 : VForm := ⟨.dest, .src, .off, .off, .code, 1, false⟩
def fRedMax : VForm := ⟨.dest, .src, .off, .off, .zero, 3, false⟩
def fRedI32 : VForm := ⟨.dest, .src, .off, .off, .zero, 1, false⟩
def fRedF64 : VForm := ⟨.off, .src, .off, .off, .code, 1, false⟩
def fTopk : VForm := ⟨.vreg 62, .src, .src, .lit 1 64, .zero, 0, false⟩
/-- The coder commands (R249). A mod of `rcinit` above 1 is refused. -/
def fRcinitD : VForm := ⟨.off, .src, .off, .mask, .zero, 0, false⟩
def fRcinitE : VForm := ⟨.off, .src, .src, .mask, .zero, 1, false⟩
def fRcfin : VForm := ⟨.off, .off, .off, .mask, .zero, 0, false⟩
def fRcstat : VForm := ⟨.dest, .off, .off, .off, .zero, 6, false⟩
def fRcdec : VForm := ⟨.dest, .src, .off, .mask, .zero, 0, false⟩
def fRcdecm (w : VWord) : VForm :=
  if w.mod = 0 then ⟨.dest, .off, .lit 0 15, .mask, .zero, 1, false⟩ else ⟨.dest, .src, .off, .mask, .zero, 1, false⟩
def fRcenc : VForm := ⟨.off, .src, .src, .mask, .zero, 0, false⟩
def fRcencm (w : VWord) : VForm :=
  if w.mod = 0 then ⟨.off, .src, .lit 0 15, .mask, .zero, 1, false⟩ else ⟨.off, .src, .src, .mask, .zero, 1, false⟩
def fCkpt : VForm := ⟨.off, .off, .off, .off, .zero, 1, false⟩
def fQun : VForm := ⟨.dest, .src, .off, .off, .zero, 0, false⟩
def fQadapt : VForm := ⟨.dest, .src, .src, .off, .zero, 7, false⟩
def fCdfsw : VForm := ⟨.off, .src, .lit 0 15, .off, .zero, 0, false⟩

/-! ### Format E -/

/-- Bits of a command word's ARGS, in the numbering of the word (R168). -/
def argF (w : EWord) (hi lo : Nat) : Nat := w.args.toNat / 2 ^ (lo - 10) % 2 ^ (hi - lo + 1)
/-- Bits of an extension word's payload. -/
def payF (x : BitVec 56) (hi lo : Nat) : Nat := x.toNat / 2 ^ lo % 2 ^ (hi - lo + 1)
/-- The address that a payload holds in its low 52 bits. -/
def payAddr (x : BitVec 56) : Nat := x.toNat % 2 ^ 52
/-- The bits above the address are zero. -/
def addrOnly (x : BitVec 56) : Bool := x.toNat < 2 ^ 52

/-- Checks 3, 4 and 6 of R171 on a format E entry; `own` are the bits of the executing engine, `ok` the command's own
part of check 4. -/
def eFault (own : Nat) (w : EWord) (ok : Bool) (round : RF) : Option Nat :=
  if w.wait.getLsbD own || w.signal.getLsbD own then some 0x21
  else if !ok || (round = .zero && w.round ≠ 0) then some 0x02
  else if !round.ok w.round then some 0x30
  else none

/-- `enop` and `setrm` carry zero in every other operand bit (R168). -/
def okPlain (w : EWord) : Bool := w.args = 0 && w.cls = 0 && w.mod = 0

/-- The signed 18-bit stride in a field. -/
def stride18 (n : Nat) : Int := if n < 2 ^ 17 then (n : Int) else (n : Int) - 2 ^ 18
/-- Extents and strides of a box (R263); the first stride is 1. -/
def boxExtents (x2 : BitVec 56) : List Nat := [payF x2 13 0 + 1, payF x2 27 14 + 1, payF x2 41 28 + 1, payF x2 55 42 + 1]
def boxStrides (x3 : BitVec 56) : List Int := [1, stride18 (payF x3 17 0), stride18 (payF x3 35 18), stride18 (payF x3 53 36)]
/-- The dimensions beyond DIMS have extent 1 and stride 0 (R263). -/
def boxOk (dims : Nat) (x2 x3 : BitVec 56) : Bool :=
  ([1, 2, 3] : List Nat).all fun d => d < dims || ((boxExtents x2).getD d 1 = 1 && (boxStrides x3).getD d 0 = 0)

/-- Check 4 of the access commands (R258, R263 to R271). -/
def okLstrm (w : EWord) (x1 x2 x3 : BitVec 56) : Bool :=
  argF w 30 10 = 0 && argF w 36 33 ≤ 7 && w.mod.toNat ≤ 1 && addrOnly x1 && payF x3 55 54 = 0 && boxOk (argF w 32 31 + 1) x2 x3
def okWstrm (w : EWord) (x1 x2 x3 : BitVec 56) : Bool :=
  argF w 37 37 = 0 && w.mod = 0 && addrOnly x1 &&
  if 8 ≤ argF w 36 33 then argF w 32 31 = 0 && 1 ≤ argF w 30 10 && addrOnly x2 && addrOnly x3
  else argF w 30 10 = 0 && argF w 36 33 ≤ 6 && payF x3 55 54 = 0 && boxOk (argF w 32 31 + 1) x2 x3
def okLgath (w : EWord) (x1 x2 x3 : BitVec 56) : Bool :=
  argF w 26 10 = 0 && argF w 36 33 ≤ 7 && w.mod = 0 && addrOnly x1 && addrOnly x2 && 1 ≤ payF x3 23 0 && payF x3 55 24 = 0
    && decide (max 2 (argF w 32 30 + 1) ≤ argF w 29 27 + 1)
def okLbmg (w : EWord) (x1 x2 x3 : BitVec 56) : Bool :=
  argF w 32 10 = 0 && argF w 36 33 ≤ 7 && w.mod = 0 && addrOnly x1 && payF x2 55 44 = 0 && payF x3 55 48 = 0
def okLcbtab (w : EWord) (x1 : BitVec 56) : Bool := argF w 11 10 = 0 && w.mod = 0 && addrOnly x1
def okLcbx (w : EWord) (x1 : BitVec 56) : Bool :=
  argF w 28 10 = 0 && w.mod.toNat ≤ 1 && addrOnly x1 && argF w 36 33 + (argF w 32 29 + 1) ≤ 16
def okLpkld (w : EWord) (x1 x2 : BitVec 56) : Bool := argF w 36 10 = 0 && w.mod.toNat ≤ 1 && addrOnly x1 && payF x2 55 32 = 0
def okWpkst (w : EWord) (x1 x2 : BitVec 56) : Bool := argF w 37 10 = 0 && w.mod = 0 && addrOnly x1 && payF x2 55 32 = 0
def okWscat (w : EWord) (x1 x2 x3 : BitVec 56) : Bool :=
  argF w 31 10 = 0 && argF w 35 32 ≤ 6 && w.mod = 0 && addrOnly x1 && payF x2 55 32 = 0 && payF x3 55 32 = 0

/-- Check 4 of the M commands (R286). -/
def okMlease (w : EWord) : Bool := argF w 37 10 = 0 && argF w 39 38 ≤ 2 && w.cls = 0 && w.mod = 0
def okMzero (w : EWord) : Bool := argF w 37 10 = 0 && w.cls = 0 && w.mod = 0
def accOk (w : EWord) : Bool := argF w 37 36 ≤ 2 && (argF w 37 36 = 2 || argF w 35 31 = 0)
def okMmul (w : EWord) (x1 : BitVec 56) : Bool := argF w 15 10 = 0 && accOk w && w.mod = 0 && payF x1 7 0 = 0
def okMmul2 (w : EWord) (x1 x2 : BitVec 56) : Bool :=
  argF w 39 39 = 0 && argF w 15 10 = 0 && accOk w && w.mod = 0 && payF x1 7 0 = 0 && payF x2 35 0 = 0
def okMdrain (w : EWord) (x1 x2 : BitVec 56) : Bool :=
  argF w 19 10 = 0 && w.mod = 0 && payF x1 35 0 = 0 && addrOnly x2 && (argF w 36 36 = 1 || x2 = 0)

/-- Check 4 of the copy commands (R274 to R277). -/
def okCcopy (w : EWord) (x1 x2 : BitVec 56) : Bool :=
  let conv := payF x1 55 52
  w.mod = 0 && payF x2 53 52 = 0 && conv ≤ 11 && 1 ≤ argF w 29 10 && !(payF x2 54 54 = 1 && conv = 0)
    && !((conv = 8 || conv = 9) && argF w 29 10 % 2 = 1)
/-- Rows and columns of windows that a `cwin` writes; none where the kernel does not fit. -/
def winCount (n p k s : Nat) : Nat := if n + 2 * p < k then 0 else (n + 2 * p - k) / s + 1
def okCwin (w : EWord) (x1 x2 x3 : BitVec 56) : Bool :=
  let stride := argF w 27 26 + 1
  let pad := argF w 25 23
  w.mod = 0 && argF w 15 10 = 0 && argF w 29 28 ≤ 2 && addrOnly x1 && addrOnly x2 && payF x3 55 42 = 0
    && 1 ≤ payF x3 13 0 && 1 ≤ payF x3 27 14 && 1 ≤ payF x3 41 28
    && 1 ≤ winCount (payF x3 13 0) pad (argF w 22 20 + 1) stride && 1 ≤ winCount (payF x3 27 14) pad (argF w 19 17 + 1) stride
def okCexp (w : EWord) (x1 : BitVec 56) : Bool := w.mod = 0 && addrOnly x1
def okCarr (w : EWord) (x1 : BitVec 56) : Bool := w.mod = 0 && argF w 35 10 = 0 && addrOnly x1
def okCacc (w : EWord) (x1 : BitVec 56) : Bool := w.mod = 0 && argF w 14 10 = 0 && addrOnly x1 && argF w 30 23 + (argF w 22 15 + 1) ≤ 256
def okCadd (w : EWord) (x1 x2 : BitVec 56) : Bool :=
  w.mod = 0 && argF w 14 10 = 0 && payF x1 55 52 ≤ 2 && payF x2 55 40 = 0
    && argF w 30 23 + (payF x2 7 0 + 1) ≤ 256 && argF w 22 15 + (payF x2 15 8 + 1) ≤ 256

end Sys2Proof.Machine
end

