-- ==== Sys2Proof/Machine/ScalarMem.lean ====
section
/-! DEFINITION. The scalar accesses to memory and the meanings of the load, store and atomic instructions and of
fence (R73 to R77, R100 to R116, R183 to R186). -/
namespace Sys2Proof.Machine

/-- The race identity of S of a core. -/
def whoS (s : State) (c : Nat) : Who := whoCore s c 0

/-- The die whose memory a physical device address lies in (R356). -/
def dieOfPa (pa : Nat) : Nat := pa / 2 ^ 38

/-- R73, R77 and R74 in the order of R173: the address, the full-empty qualifier, the alignment. -/
def addrTrap (va w : Nat) (fe : Bool) : Option Nat :=
  match spaceOf va with
  | none => some 0x10
  | some sp => if fe && sp ≠ .core then some 0x12 else if va % w ≠ 0 then some 0x11 else none

/-- Time of a scalar load (R208): a miss of the cluster cache leaves the domain (R351). -/
def loadCycles (c : Nat) (p : Place) (hit : Bool) : Lat :=
  match p.space with
  | .core => ⟨3, 0⟩
  | .cluster => ⟨8, 0⟩
  | .device => if hit then ⟨p.extra + 16, 0⟩ else ⟨0, p.extra + 140 + legCy (dieOf c) (dieOfPa p.pa)⟩

/-- Time of an atomic access with the given core and cluster figures (R208, R351). -/
def atomicCycles (c core cluster : Nat) (p : Place) : Lat :=
  match p.space with
  | .core => ⟨core, 0⟩
  | .cluster => ⟨cluster, 0⟩
  | .device => ⟨0, p.extra + 150 + legCy (dieOf c) (dieOfPa p.pa)⟩

/-- A plain scalar read of w bytes: its value and time. Device memory is read through the cluster cache (R84). -/
def loadS (s : State) (c va w cls : Nat) : Got (Nat × Lat) :=
  let u := whoS s c
  (place s u va false false).bind fun p s =>
    if watermarkStall s u p.pa w then .stall (stallMark s u p.pa w)
    else if rangePoisoned s p.pa w then .trap (poisonCause p.pa) none s
    else
      (if p.relax then .ok () s else raceCheck s u va p.pa cls false).bind fun _ s =>
        match p.space with
        | .device =>
          let ((line, hit), s) := cacheLine s u.cluster (p.pa / 64)
          .ok (bytesNat ((line.drop (p.pa % 64)).take w), loadCycles c p hit) s
        | _ => .ok (memNat s.mem p.pa w, loadCycles c p true) s

/-- A plain scalar write of w bytes (R183): it leaves full-empty bits unchanged. -/
def storeS (s : State) (c va w v cls : Nat) : Got Place :=
  let u := whoS s c
  (place s u va true false).bind fun p s =>
    if watermarkStall s u p.pa w then .stall (stallMark s u p.pa w)
    else
      (if p.relax then .ok () s else raceCheck s u va p.pa cls true).bind fun _ s =>
        .ok p (shadowWrite (pokeBytes s u p.pa (natBytes v w) true) u p.pa cls true p.relax)

/-- An atomic read of w bytes observes the releases that the atomic writes of those bytes left (R113). -/
def observe (s : State) (c pa w cls : Nat) : State :=
  match ((List.range w).filterMap fun i => mapFind (pa + i) s.arel).eraseDups with
  | [] => s
  | l =>
    let u := whoS s c
    let r := raceGet s u
    racePut s u { r with seen := mapMod [] cls (· ++ l) r.seen }

/-- An atomic write of w bytes carries the latest fence that named its class (R113). -/
def publish (s : State) (c pa w cls : Nat) : State :=
  match mapFind cls (raceGet s (whoS s c)).fences with
  | none => s
  | some f => { s with arel := (List.range w).foldl (fun m i => mapSet (pa + i) f m) s.arel }

/-- An atomic read (R184): never checked, past the cluster cache. -/
def atomicLoad (s : State) (c va w cls : Nat) : Got (Nat × Place) :=
  let u := whoS s c
  (place s u va false false).bind fun p s =>
    if watermarkStall s u p.pa w then .stall (stallMark s u p.pa w)
    else if rangePoisoned s p.pa w then .trap (poisonCause p.pa) none s
    else .ok (memNat s.mem p.pa w, p) (observe s c p.pa w cls)

/-- An atomic write performs at once for every unit (R110): the cluster's cached line follows it. -/
def atomicPoke (s : State) (c : Nat) (p : Place) (w v cls : Nat) : State :=
  publish (pokeBytes s (whoS s c) p.pa (natBytes v w) true) c p.pa w cls
def atomicStore (s : State) (c va w v cls : Nat) : Got Place :=
  let u := whoS s c
  (place s u va true false).bind fun p s =>
    if watermarkStall s u p.pa w then .stall (stallMark s u p.pa w) else .ok p (atomicPoke s c p w v cls)

/-- An atomic read-modify-write (R110, R185): one update, giving the old value. -/
def atomicRmw (s : State) (c va w cls : Nat) (f : Nat → Nat) : Got (Nat × Place) :=
  let u := whoS s c
  (place s u va true false).bind fun p s =>
    if watermarkStall s u p.pa w then .stall (stallMark s u p.pa w)
    else if rangePoisoned s p.pa w then .trap (poisonCause p.pa) none s
    else
      let old := memNat s.mem p.pa w
      .ok (old, p) (atomicPoke (observe s c p.pa w cls) c p w (f old) cls)

/-! ### Loads and stores (R183, R76) -/

/-- What a loaded value becomes: sign-extended from w bytes for a signed form. -/
def extend (signed : Bool) (w v : Nat) : W64 := if signed then BitVec.ofInt 64 (signedOf (8 * w) v) else BitVec.ofNat 64 v

/-- A unit acquires what the latest setter of a granule released (R106, R391): before its read of the granule is checked. -/
def acquireGranule (s : State) (c e key : Nat) : State :=
  match (mapFind key s.full).getD none with
  | some r => acquireBy s c e 0 r
  | none => s

/-- A load (R183). `q` is 0 for the plain form, 1 for `.w`, 2 for `.wc`. -/
def execLoad (g : BitVec 3) (d a : BitVec 5) (cl : BitVec 4) (o : BitVec 8) (signed : Bool) (w q : Nat) (s : State) : State :=
  scalar g (fun s =>
    let c := s.cur.1
    let va := (memAddr s a o w).toNat
    match addrTrap va w (q ≠ 0) with
    | some cause => .trap cause 0 none s
    | none =>
      let key := granKey c (va - 0x000FFFFFFFF80000)
      if q ≠ 0 && !isFull s key then .wait .stalled s
      else
        (loadS (if q ≠ 0 then acquireGranule s c 0 key else s) c va w cl.toNat).toS s fun (v, lat) s =>
          let s := if q = 2 then clearFull s key else s
          let x := extend signed w v
          .ok ((s.performs lat).setLat d x lat) none 1 (.load (BitVec.ofNat 64 va) x)) s

/-- A store (R183). `q` is 0 for the plain form, 1 for `.set`, 2 for `.clr`. -/
def execStore (g : BitVec 3) (d a : BitVec 5) (cl : BitVec 4) (o : BitVec 8) (w q : Nat) (s : State) : State :=
  scalar g (fun s =>
    let c := s.cur.1
    let va := (memAddr s a o w).toNat
    match addrTrap va w (q ≠ 0) with
    | some cause => .trap cause 0 none s
    | none =>
      (storeS s c va w ((s.x d).toNat % 256 ^ w) cl.toNat).toS s fun p s =>
        let key := p.pa / 16
        let s :=
          if q = 1 then
            let (r, s) := releaseS s c
            setFull s key (some r)
          else if q = 2 then clearFull s key else s
        .ok s none 1 .other) s

/-- `ald` (R184). -/
def execAld (g : BitVec 3) (d a : BitVec 5) (cl : BitVec 4) (o : BitVec 8) (w : Nat) (s : State) : State :=
  scalar g (fun s =>
    let c := s.cur.1
    let va := (memAddr s a o w).toNat
    match addrTrap va w false with
    | some cause => .trap cause 0 none s
    | none =>
      (atomicLoad s c va w cl.toNat).toS s fun (v, p) s =>
        let x : W64 := BitVec.ofNat 64 v
        .ok ((s.performs (atomicCycles c 3 10 p)).setLat d x (atomicCycles c 3 10 p)) none 1 (.load (BitVec.ofNat 64 (2 ^ 63 + va)) x)) s

/-- `ast` (R184). -/
def execAst (g : BitVec 3) (d a : BitVec 5) (cl : BitVec 4) (o : BitVec 8) (w : Nat) (s : State) : State :=
  scalar g (fun s =>
    let c := s.cur.1
    let va := (memAddr s a o w).toNat
    match addrTrap va w false with
    | some cause => .trap cause 0 none s
    | none =>
      (atomicStore s c va w ((s.x d).toNat % 256 ^ w) cl.toNat).toS s fun _ s => .ok s none 1 .other) s

/-- An operation of the atomic group on w bytes (R185): the old value goes to rd, zero-extended. `f` takes the old
value, the operand and rd, all reduced to w bytes. -/
def execAtomic (g : BitVec 3) (d a b : BitVec 5) (cl : BitVec 4) (w : Nat) (f : Nat → Nat → Nat → Nat) (s : State) : State :=
  scalar g (fun s =>
    let c := s.cur.1
    let va := (s.x a).toNat
    match addrTrap va w false with
    | some cause => .trap cause 0 none s
    | none =>
      let r (x : W64) : Nat := x.toNat % 256 ^ w
      (atomicRmw s c va w cl.toNat fun old => f old (r (s.x b)) (r (s.x d)) % 256 ^ w).toS s fun (old, p) s =>
        .ok ((s.performs (atomicCycles c 4 12 p)).setLat d (BitVec.ofNat 64 old) (atomicCycles c 4 12 p)) none 1 .other) s

/-- The new memory values of R185, on w bytes. -/
def amoMaxI (w old b : Nat) : Nat := if signedOf (8 * w) old < signedOf (8 * w) b then b else old
def amoMinI (w old b : Nat) : Nat := if signedOf (8 * w) b < signedOf (8 * w) old then b else old

/-! ### fence (R105, R113, R186) -/

/-- The effect of a fence of a scope on the classes of a mask (R105, R113): the scopes of the table rise to the fence's, the
releases seen by atomic reads in those classes are acquired at the lesser of the two fences' scopes, the fence is kept for later
atomic writes, and the cluster's cached lines follow. -/
def fenceEffect (s : State) (c scope : Nat) (mask : BitVec 16) : State :=
  let u := whoS s c
  let classes := (List.range 16).filter fun i => mask.getLsbD i
  let r := raceGet s u
  let seen := classes.flatMap fun i => mapGet [] i r.seen
  let r := { r with tab := r.tab.map (REnt.raise scope), seen := r.seen.filter fun e => !classes.contains e.1 }
  let r := seen.foldl (fun r f => acquire s.now (min scope f.scope) f.rel r) r
  let rel := relOf u.id r
  let r := { r with fences := classes.foldl (fun m i => mapSet i ⟨rel, scope⟩ m) r.fences }
  dropCache (racePut s u (bump mask r)) u.cluster scope

/-- R186: a fence of scope `sc` on the classes of `m`. -/
def execFence (g sc : BitVec 3) (m : BitVec 16) (s : State) : Host.Outcome State Fault Refusal :=
  .next (scalar g (fun s =>
    if 5 ≤ sc.toNat then .trap 0x04 0 none s
    else if m = 0 then .ok s none 2 .plain
    else .ok (fenceEffect s s.cur.1 sc.toNat m) none 2 .plain) s)

/-- R183. -/
def execLdI8 (g : BitVec 3) (d a : BitVec 5) (c : BitVec 4) (o : BitVec 8) (s : State) : Host.Outcome State Fault Refusal :=
  .next (execLoad g d a c o true 1 0 s)

/-- R183. -/
def execLdN8 (g : BitVec 3) (d a : BitVec 5) (c : BitVec 4) (o : BitVec 8) (s : State) : Host.Outcome State Fault Refusal :=
  .next (execLoad g d a c o false 1 0 s)

/-- R183. -/
def execLdI16 (g : BitVec 3) (d a : BitVec 5) (c : BitVec 4) (o : BitVec 8) (s : State) : Host.Outcome State Fault Refusal :=
  .next (execLoad g d a c o true 2 0 s)

/-- R183. -/
def execLdN16 (g : BitVec 3) (d a : BitVec 5) (c : BitVec 4) (o : BitVec 8) (s : State) : Host.Outcome State Fault Refusal :=
  .next (execLoad g d a c o false 2 0 s)

/-- R183. -/
def execLdI32 (g : BitVec 3) (d a : BitVec 5) (c : BitVec 4) (o : BitVec 8) (s : State) : Host.Outcome State Fault Refusal :=
  .next (execLoad g d a c o true 4 0 s)

/-- R183. -/
def execLdN32 (g : BitVec 3) (d a : BitVec 5) (c : BitVec 4) (o : BitVec 8) (s : State) : Host.Outcome State Fault Refusal :=
  .next (execLoad g d a c o false 4 0 s)

/-- R183. -/
def execLdN64 (g : BitVec 3) (d a : BitVec 5) (c : BitVec 4) (o : BitVec 8) (s : State) : Host.Outcome State Fault Refusal :=
  .next (execLoad g d a c o false 8 0 s)

/-- R183. -/
def execLdI8W (g : BitVec 3) (d a : BitVec 5) (c : BitVec 4) (o : BitVec 8) (s : State) : Host.Outcome State Fault Refusal :=
  .next (execLoad g d a c o true 1 1 s)

/-- R183. -/
def execLdN8W (g : BitVec 3) (d a : BitVec 5) (c : BitVec 4) (o : BitVec 8) (s : State) : Host.Outcome State Fault Refusal :=
  .next (execLoad g d a c o false 1 1 s)

/-- R183. -/
def execLdI16W (g : BitVec 3) (d a : BitVec 5) (c : BitVec 4) (o : BitVec 8) (s : State) : Host.Outcome State Fault Refusal :=
  .next (execLoad g d a c o true 2 1 s)

/-- R183. -/
def execLdN16W (g : BitVec 3) (d a : BitVec 5) (c : BitVec 4) (o : BitVec 8) (s : State) : Host.Outcome State Fault Refusal :=
  .next (execLoad g d a c o false 2 1 s)

/-- R183. -/
def execLdI32W (g : BitVec 3) (d a : BitVec 5) (c : BitVec 4) (o : BitVec 8) (s : State) : Host.Outcome State Fault Refusal :=
  .next (execLoad g d a c o true 4 1 s)

/-- R183. -/
def execLdN32W (g : BitVec 3) (d a : BitVec 5) (c : BitVec 4) (o : BitVec 8) (s : State) : Host.Outcome State Fault Refusal :=
  .next (execLoad g d a c o false 4 1 s)

/-- R183. -/
def execLdN64W (g : BitVec 3) (d a : BitVec 5) (c : BitVec 4) (o : BitVec 8) (s : State) : Host.Outcome State Fault Refusal :=
  .next (execLoad g d a c o false 8 1 s)

/-- R183. -/
def execLdI8Wc (g : BitVec 3) (d a : BitVec 5) (c : BitVec 4) (o : BitVec 8) (s : State) : Host.Outcome State Fault Refusal :=
  .next (execLoad g d a c o true 1 2 s)

/-- R183. -/
def execLdN8Wc (g : BitVec 3) (d a : BitVec 5) (c : BitVec 4) (o : BitVec 8) (s : State) : Host.Outcome State Fault Refusal :=
  .next (execLoad g d a c o false 1 2 s)

/-- R183. -/
def execLdI16Wc (g : BitVec 3) (d a : BitVec 5) (c : BitVec 4) (o : BitVec 8) (s : State) : Host.Outcome State Fault Refusal :=
  .next (execLoad g d a c o true 2 2 s)

/-- R183. -/
def execLdN16Wc (g : BitVec 3) (d a : BitVec 5) (c : BitVec 4) (o : BitVec 8) (s : State) : Host.Outcome State Fault Refusal :=
  .next (execLoad g d a c o false 2 2 s)

/-- R183. -/
def execLdI32Wc (g : BitVec 3) (d a : BitVec 5) (c : BitVec 4) (o : BitVec 8) (s : State) : Host.Outcome State Fault Refusal :=
  .next (execLoad g d a c o true 4 2 s)

/-- R183. -/
def execLdN32Wc (g : BitVec 3) (d a : BitVec 5) (c : BitVec 4) (o : BitVec 8) (s : State) : Host.Outcome State Fault Refusal :=
  .next (execLoad g d a c o false 4 2 s)

/-- R183. -/
def execLdN64Wc (g : BitVec 3) (d a : BitVec 5) (c : BitVec 4) (o : BitVec 8) (s : State) : Host.Outcome State Fault Refusal :=
  .next (execLoad g d a c o false 8 2 s)

/-- R183. -/
def execStN8 (g : BitVec 3) (d a : BitVec 5) (c : BitVec 4) (o : BitVec 8) (s : State) : Host.Outcome State Fault Refusal :=
  .next (execStore g d a c o 1 0 s)

/-- R183. -/
def execStN16 (g : BitVec 3) (d a : BitVec 5) (c : BitVec 4) (o : BitVec 8) (s : State) : Host.Outcome State Fault Refusal :=
  .next (execStore g d a c o 2 0 s)

/-- R183. -/
def execStN32 (g : BitVec 3) (d a : BitVec 5) (c : BitVec 4) (o : BitVec 8) (s : State) : Host.Outcome State Fault Refusal :=
  .next (execStore g d a c o 4 0 s)

/-- R183. -/
def execStN64 (g : BitVec 3) (d a : BitVec 5) (c : BitVec 4) (o : BitVec 8) (s : State) : Host.Outcome State Fault Refusal :=
  .next (execStore g d a c o 8 0 s)

/-- R183. -/
def execStN8Set (g : BitVec 3) (d a : BitVec 5) (c : BitVec 4) (o : BitVec 8) (s : State) : Host.Outcome State Fault Refusal :=
  .next (execStore g d a c o 1 1 s)

/-- R183. -/
def execStN16Set (g : BitVec 3) (d a : BitVec 5) (c : BitVec 4) (o : BitVec 8) (s : State) : Host.Outcome State Fault Refusal :=
  .next (execStore g d a c o 2 1 s)

/-- R183. -/
def execStN32Set (g : BitVec 3) (d a : BitVec 5) (c : BitVec 4) (o : BitVec 8) (s : State) : Host.Outcome State Fault Refusal :=
  .next (execStore g d a c o 4 1 s)

/-- R183. -/
def execStN64Set (g : BitVec 3) (d a : BitVec 5) (c : BitVec 4) (o : BitVec 8) (s : State) : Host.Outcome State Fault Refusal :=
  .next (execStore g d a c o 8 1 s)

/-- R183. -/
def execStN8Clr (g : BitVec 3) (d a : BitVec 5) (c : BitVec 4) (o : BitVec 8) (s : State) : Host.Outcome State Fault Refusal :=
  .next (execStore g d a c o 1 2 s)

/-- R183. -/
def execStN16Clr (g : BitVec 3) (d a : BitVec 5) (c : BitVec 4) (o : BitVec 8) (s : State) : Host.Outcome State Fault Refusal :=
  .next (execStore g d a c o 2 2 s)

/-- R183. -/
def execStN32Clr (g : BitVec 3) (d a : BitVec 5) (c : BitVec 4) (o : BitVec 8) (s : State) : Host.Outcome State Fault Refusal :=
  .next (execStore g d a c o 4 2 s)

/-- R183. -/
def execStN64Clr (g : BitVec 3) (d a : BitVec 5) (c : BitVec 4) (o : BitVec 8) (s : State) : Host.Outcome State Fault Refusal :=
  .next (execStore g d a c o 8 2 s)

/-- R184. -/
def execAldN32 (g : BitVec 3) (d a : BitVec 5) (c : BitVec 4) (o : BitVec 8) (s : State) : Host.Outcome State Fault Refusal :=
  .next (execAld g d a c o 4 s)

/-- R184. -/
def execAldN64 (g : BitVec 3) (d a : BitVec 5) (c : BitVec 4) (o : BitVec 8) (s : State) : Host.Outcome State Fault Refusal :=
  .next (execAld g d a c o 8 s)

/-- R184. -/
def execAstN32 (g : BitVec 3) (d a : BitVec 5) (c : BitVec 4) (o : BitVec 8) (s : State) : Host.Outcome State Fault Refusal :=
  .next (execAst g d a c o 4 s)

/-- R184. -/
def execAstN64 (g : BitVec 3) (d a : BitVec 5) (c : BitVec 4) (o : BitVec 8) (s : State) : Host.Outcome State Fault Refusal :=
  .next (execAst g d a c o 8 s)

/-- R185. -/
def execAaddN32 (g : BitVec 3) (d a b : BitVec 5) (c : BitVec 4) (s : State) : Host.Outcome State Fault Refusal :=
  .next (execAtomic g d a b c 4 (fun old b _ => old + b) s)

/-- R185. -/
def execAswpN32 (g : BitVec 3) (d a b : BitVec 5) (c : BitVec 4) (s : State) : Host.Outcome State Fault Refusal :=
  .next (execAtomic g d a b c 4 (fun _ b _ => b) s)

/-- R185. -/
def execAmaxI32 (g : BitVec 3) (d a b : BitVec 5) (c : BitVec 4) (s : State) : Host.Outcome State Fault Refusal :=
  .next (execAtomic g d a b c 4 (fun old b _ => amoMaxI 4 old b) s)

/-- R185. -/
def execAmaxN32 (g : BitVec 3) (d a b : BitVec 5) (c : BitVec 4) (s : State) : Host.Outcome State Fault Refusal :=
  .next (execAtomic g d a b c 4 (fun old b _ => max old b) s)

/-- R185. -/
def execAminI32 (g : BitVec 3) (d a b : BitVec 5) (c : BitVec 4) (s : State) : Host.Outcome State Fault Refusal :=
  .next (execAtomic g d a b c 4 (fun old b _ => amoMinI 4 old b) s)

/-- R185. -/
def execAminN32 (g : BitVec 3) (d a b : BitVec 5) (c : BitVec 4) (s : State) : Host.Outcome State Fault Refusal :=
  .next (execAtomic g d a b c 4 (fun old b _ => min old b) s)

/-- R185. -/
def execAorN32 (g : BitVec 3) (d a b : BitVec 5) (c : BitVec 4) (s : State) : Host.Outcome State Fault Refusal :=
  .next (execAtomic g d a b c 4 (fun old b _ => old ||| b) s)

/-- R185. -/
def execAcasN32 (g : BitVec 3) (d a b : BitVec 5) (c : BitVec 4) (s : State) : Host.Outcome State Fault Refusal :=
  .next (execAtomic g d a b c 4 (fun old b e => if old = e then b else old) s)

/-- R185. -/
def execAaddN64 (g : BitVec 3) (d a b : BitVec 5) (c : BitVec 4) (s : State) : Host.Outcome State Fault Refusal :=
  .next (execAtomic g d a b c 8 (fun old b _ => old + b) s)

/-- R185. -/
def execAswpN64 (g : BitVec 3) (d a b : BitVec 5) (c : BitVec 4) (s : State) : Host.Outcome State Fault Refusal :=
  .next (execAtomic g d a b c 8 (fun _ b _ => b) s)

/-- R185. -/
def execAmaxI64 (g : BitVec 3) (d a b : BitVec 5) (c : BitVec 4) (s : State) : Host.Outcome State Fault Refusal :=
  .next (execAtomic g d a b c 8 (fun old b _ => amoMaxI 8 old b) s)

/-- R185. -/
def execAmaxN64 (g : BitVec 3) (d a b : BitVec 5) (c : BitVec 4) (s : State) : Host.Outcome State Fault Refusal :=
  .next (execAtomic g d a b c 8 (fun old b _ => max old b) s)

/-- R185. -/
def execAminI64 (g : BitVec 3) (d a b : BitVec 5) (c : BitVec 4) (s : State) : Host.Outcome State Fault Refusal :=
  .next (execAtomic g d a b c 8 (fun old b _ => amoMinI 8 old b) s)

/-- R185. -/
def execAminN64 (g : BitVec 3) (d a b : BitVec 5) (c : BitVec 4) (s : State) : Host.Outcome State Fault Refusal :=
  .next (execAtomic g d a b c 8 (fun old b _ => min old b) s)

/-- R185. -/
def execAorN64 (g : BitVec 3) (d a b : BitVec 5) (c : BitVec 4) (s : State) : Host.Outcome State Fault Refusal :=
  .next (execAtomic g d a b c 8 (fun old b _ => old ||| b) s)

/-- R185. -/
def execAcasN64 (g : BitVec 3) (d a b : BitVec 5) (c : BitVec 4) (s : State) : Host.Outcome State Fault Refusal :=
  .next (execAtomic g d a b c 8 (fun old b e => if old = e then b else old) s)

end Sys2Proof.Machine
end

