-- ==== Sys2Proof/Machine/Control.lean ====
section
/-! DEFINITION. Control transfers, the return-address store, spin parking, voting points, detach and join, and the
trap instructions (R129 to R136, R179 to R182, R203, R206, R322, R323). -/
namespace Sys2Proof.Machine

/-! ### Votes (R129) -/

/-- The bound cores of a cluster's roster: its group (R128). -/
def groupOf (s : State) (k : Nat) : List Nat := ((List.range 8).map (k * 8 + ·)).filter fun c => (s.core c).pr.roster && (s.core c).pr.bound
/-- The roster of a cluster (R125, R128). -/
def rosterOf (s : State) (k : Nat) : List Nat := ((List.range 8).map (k * 8 + ·)).filter fun c => (s.core c).pr.roster

/-- Once every bound core has issued the voting point, the vote resolves in the second cycle after the last issue
(R129), or at once where a core that had not voted leaves later (R136). -/
def voteCheck (s : State) (k : Nat) : State :=
  let u := s.cluster k
  if u.fe.voting.isSome && u.fe.resolveAt.isNone && u.fe.joining.isNone && (groupOf s k).all fun c => (s.core c).pr.vote.isSome then
    let left := ((groupOf s k).map fun c => (s.core c).su.next - (s.core c).cy).foldl max 0
    s.modCluster k fun u => { u with fe := { u.fe with resolveAt := some (u.dcy + left) } }
  else s

/-- A bound core casts its vote and waits for the resolution. -/
def castVote (s : State) (c : Nat) (v : Vote) : State :=
  let s := s.modPr c fun p => { p with vote := some { v with hold := (s.core c).su.next } }
  voteCheck (s.modS c fun u => { u with wait := .vote, next := (s.core c).cy + 2 }) (clusterOf c)

/-- A scalar instruction that is a voting point on a bound core (R129): after its effect, or with a false guard, the
core votes for its next address. -/
def voting (g : BitVec 3) (votes : Bool) (body : State → SRes) (s : State) : State :=
  let c := s.cur.1
  let bound := (s.core c).pr.bound
  let t := scalar g body s
  if votes && bound && (t.core c).pr.bound && (t.core c).su.wait = .idle then
    castVote t c { next := (t.core c).su.pc, leaves := false, join := false, guard := s.pred g, pd := 0, t := 0, park := none }
  else t

/-! ### The return-address store (R180) -/

/-- RSPILL.TOP and RSPILL.COUNT (R181). -/
def spillTop (r : W64) : Nat := r.toNat % 2 ^ 52 / 8 * 8
def spillCount (r : W64) : Nat := r.toNat / 2 ^ 52
def spillWord (count top : Nat) : W64 := BitVec.ofNat 64 (count * 2 ^ 52 + top % 2 ^ 52)

/-- push(x) of R180. -/
def pushReturn (s : State) (c : Nat) (x : W64) (f : State → SRes) : SRes :=
  let u := (s.core c).su
  if u.ras.length < 16 then f (s.modS c fun u => { u with ras := u.ras ++ [x] })
  else if spillCount u.rspill = 4095 then .trap 0x0E 0 none s
  else
    (storeS s c (spillTop u.rspill) 8 (u.ras.headD 0).toNat 0).toS s fun _ s =>
      f (s.modS c fun u => { u with ras := u.ras.drop 1 ++ [x], rspill := spillWord (spillCount u.rspill + 1) (spillTop u.rspill + 8) })

/-- The pop of `ret` (R180): the address and the further time of a refill. -/
def popReturn (s : State) (c : Nat) (f : W64 → Lat → State → SRes) : SRes :=
  let u := (s.core c).su
  match u.ras.reverse with
  | x :: r => f x ⟨0, 0⟩ (s.modS c fun u => { u with ras := r.reverse })
  | [] =>
    if spillCount u.rspill = 0 then .trap 0x05 0 none s
    else
      let top := spillTop u.rspill - 8
      (loadS s c top 8 0).toS s fun (v, lat) s =>
        f (BitVec.ofNat 64 v) lat (s.modS c fun u => { u with rspill := spillWord (spillCount u.rspill - 1) top })

/-! ### Spin parking (R182) -/

/-- The monitor of a park: twice the physical sector of the spin's load, plus one when it is a plain load of device
memory. The load's address carries bit 63 for an `ald`. -/
def parkSector (s : State) (c : Nat) (a : W64) : Option Nat :=
  match place s (whoS s c) (a.toNat % 2 ^ 63) false false with
  | .ok p _ => some (p.pa / 64 * 2 + if p.space = .device && a.toNat < 2 ^ 63 then 1 else 0)
  | _ => none

/-- Whether a taken backward branch repeats an unchanged spin (R182): gives the load. -/
def spins (u : SUnit) (target : W64) : Option (W64 × W64) :=
  let r := u.spin
  match r.loads with
  | [l] => if r.valid && r.branch = u.pc && r.target = target && r.prev = some l && !r.other && r.regs = u.x && r.preds = u.p then some l else none
  | _ => none

/-- What the spin rule remembers at a taken branch. -/
def rememberBranch (u : SUnit) (target : W64) : SpinRec :=
  { valid := true, branch := u.pc, target := target, prev := (match u.spin.loads with | [l] => some l | _ => none)
    loads := [], other := false, regs := u.x, preds := u.p }

/-- A taken branch (R179), with the park of R182 when it goes back to an unchanged spin. What the strand retires between leaving a
park and parking again on the same sector with the same value is no progress (R353). -/
def takeBranch (s : State) (c : Nat) (target : W64) (back : Bool) : State :=
  let u := (s.core c).su
  let park := if back then (spins u target).bind fun l => (parkSector s c l.1).map fun m => (m, l) else none
  let s := s.modS c fun u => { u with spin := rememberBranch u target }
  match park with
  | none => s.modWd c fun w => { w with tainted := false, prog := w.prog || w.tainted }
  | some (m, l) =>
    let s := s.modWd c fun w =>
      { w with parks := w.parks + 1, prog := w.prog || !(w.tainted && w.last = some (m / 2, l.2)), last := some (m / 2, l.2), tainted := true, lastVa := l.1.toNat % 2 ^ 52 }
    s.modCore c fun k => { k with su := { k.su with wait := .park m (k.cy + 65536) } }

/-! ### Branches, calls and jumps (R179) -/

/-- The target of a BR form. -/
def brTarget (s : State) (o : BitVec 22) : W64 := s.me.su.pc + (o.signExtend 64 <<< 2)

/-- A branch with a false guard retires (R353): where it is the spin's own, the strand leaves the loop, and what it has retired since its park was progress. -/
def leaveSpin (s : State) (c : Nat) : State :=
  let u := (s.core c).su
  if u.spin.valid && u.spin.branch = u.pc then s.modWd c fun w => { w with tainted := false, prog := w.prog || w.tainted } else s

/-- R179, R182: a taken branch issues the next instruction two cycles later (R208). A guarded branch of a bound core
is a vote, and a park then follows the vote. -/
def execBr (g : BitVec 3) (o : BitVec 22) (s : State) : Host.Outcome State Fault Refusal :=
  let c := s.cur.1
  let votes := s.me.pr.bound && g ≠ 0
  let taken := s.pred g
  let s1 := takeBranch s c (brTarget s o) (taken && o.msb)
  let park := match (s1.core c).su.wait with
    | .park m d => some (m, d)
    | _ => none
  let t := if taken then retire s1 c (some (brTarget s o)) 2 .plain true else retire (leaveSpin s c) c none 1 .plain false
  .next (
    if votes then castVote t c { next := (t.core c).su.pc, leaves := false, join := false, guard := taken, pd := 0, t := 0, park := if taken then park else none }
    else
      match (if taken then park else none) with
      | some (m, d) => t.modS c fun u => { u with wait := .park m d }
      | none => t)

/-- R179: the target is PC + 4 off22, and PC + 4 is pushed. DESIGN CHOICE (log entry 80): it is the previous taken branch of R182, of another address. -/
def execCall (g : BitVec 3) (o : BitVec 22) (s : State) : Host.Outcome State Fault Refusal :=
  .next (voting g (g ≠ 0) (fun s =>
    let c := s.cur.1
    pushReturn s c (s.me.su.pc + 4) fun t => .ok (t.modS c fun u => { u with spin := SpinRec.reset }) (some (brTarget s o)) 2 .plain) s)

/-- What is wrong with a jump target (R179): outside every window first, then misaligned (R173). -/
def targetTrap (t : W64) : Option Nat :=
  if (spaceOf t.toNat).isNone then some 0x10 else if t.toNat % 4 ≠ 0 then some 0x0D else none

/-- R179. DESIGN CHOICE (log entry 80): it is the previous taken branch of R182, of another address. -/
def execJr (g : BitVec 3) (a : BitVec 5) (s : State) : Host.Outcome State Fault Refusal :=
  .next (voting g true (fun s =>
    match targetTrap (s.x a) with
    | some cause => .trap cause 0 none s
    | none => .ok (s.modS s.cur.1 fun u => { u with spin := SpinRec.reset }) (some (s.x a)) 3 .plain) s)

/-- R179: reads the target before it pushes. DESIGN CHOICE (log entry 80): it is the previous taken branch of R182, of another address. -/
def execCallr (g : BitVec 3) (a : BitVec 5) (s : State) : Host.Outcome State Fault Refusal :=
  .next (voting g true (fun s =>
    let c := s.cur.1
    let t := s.x a
    match targetTrap t with
    | some cause => .trap cause 0 none s
    | none => pushReturn s c (s.me.su.pc + 4) fun s => .ok (s.modS c fun u => { u with spin := SpinRec.reset }) (some t) 3 .plain) s)

/-- R179, R180. DESIGN CHOICE (log entry 80): it is the previous taken branch of R182, of another address. -/
def execRet (g : BitVec 3) (s : State) : Host.Outcome State Fault Refusal :=
  .next (voting g true (fun s =>
    let c := s.cur.1
    popReturn s c fun x lat s => .ok ((s.holdsFar (3 + lat.far)).modS c fun u => { u with spin := SpinRec.reset }) (some x) (3 + lat.dom) .plain) s)

/-! ### detach and join (R132 to R135, R393) -/

/-- R132: a bound core with a true guard leaves at the vote; on a detached core there is no effect. -/
def execDetach (g : BitVec 3) (s : State) : Host.Outcome State Fault Refusal :=
  let c := s.cur.1
  let bound := s.me.pr.bound
  let t := scalar g (fun s => .ok s none 1 .other) s
  .next (if bound then castVote t c { next := (t.core c).su.pc, leaves := s.pred g, join := false, guard := s.pred g, pd := 0, t := 0, park := none } else t)

/-- Whether a detached core's join at x is late (R133, R134): a join at x has been resolved since it detached, or the
log no longer reaches back that far. -/
def joinLate (s : State) (c : Nat) (x : W64) : Bool :=
  let f := (s.cluster (clusterOf c)).fe
  let since := f.count - (s.core c).pr.mark
  if f.log.length < since then true else (f.log.take since).contains x

/-- R133, R393: a bound core votes; a detached core parks until a join at this address resolves, unless it is late. -/
def execJoin (g p : BitVec 3) (t : BitVec 13) (s : State) : Host.Outcome State Fault Refusal :=
  let c := s.cur.1
  let x := s.me.su.pc
  .next (
    if s.me.pr.bound then
      castVote (dropIssued s c) c { next := x + 4, leaves := false, join := true, guard := s.pred g, pd := p, t := t, park := none }
    else
      scalar g (fun s =>
        if joinLate s c x then .ok (s.setP p false 1) none 1 .other
        else .wait (.join x.toNat) ((s.modPr c fun q => { q with parked := true, joinPd := p }).modS c fun u => { u with next := (s.core c).cy + 2 })) s)

/-! ### System group (R204 to R206, R323) -/

/-- R205: progress for the watchdog and no other effect. -/
def execHbeat (g : BitVec 3) (s : State) : Host.Outcome State Fault Refusal :=
  .next (scalar g (fun s => .ok (progress s s.cur.1) none 1 .other) s)

/-- R206: traps with cause 0x0C and the code. -/
def execSwtrap (g : BitVec 3) (n : BitVec 16) (s : State) : Host.Outcome State Fault Refusal :=
  .next (scalar g (fun s => .trap 0x0C n.toNat none s) s)

/-- R323: returns from the handler; with no handler running it traps with cause 0x0B. A voting point. -/
def execEret (g : BitVec 3) (s : State) : Host.Outcome State Fault Refusal :=
  .next (voting g true (fun s =>
    let c := s.cur.1
    if s.me.su.inh then
      let s := returnFromHandler s c
      .ok s (some s.me.su.epc) 3 .other
    else .trap 0x0B 0 none s) s)

/-- S resumes from a park at the branch target, no earlier than the branch itself lets it (R131, R182, R208). -/
def endPark (s : State) (c : Nat) : State := s.modCore c fun k => { k with su := { k.su with wait := .idle, next := max k.su.next (k.cy + 1) } }

/-- Ends a park by a write to its sector (R182). -/
def execParkWake (core : Nat) (s : State) : Host.Outcome State Fault Refusal :=
  match (s.core core).su.wait with
  | .park _ _ => .next (endPark s core)
  | _ => .refused .notEnabled

/-- Ends a park after 65,536 cycles (R182). -/
def execParkTimeout (core : Nat) (s : State) : Host.Outcome State Fault Refusal :=
  match (s.core core).su.wait with
  | .park _ d => if d ≤ (s.core core).cy then .next (endPark s core) else .refused .notEnabled
  | _ => .refused .notEnabled

end Sys2Proof.Machine
end

