-- ==== Sys2Proof/Machine/EngineControl.lean ====
section
/-! DEFINITION. Engine control and engine data: fork, rdv, tokens, enq, ksend, ipop (R13 to R23, R187 to R191). -/
namespace Sys2Proof.Machine

/-- Whether an engine is idle (R16): nothing at its head, or a static ring whose head entry waits on an empty granule; nothing
under way, every push complete. -/
def engineIdle (s : State) (c e : Nat) : Bool :=
  let k := s.core c
  let g := k.engine e
  let empty := if g.ring.isStatic then !wordsPresent s c e 1 || !wordsPresent s c e (1 + entryRest e (ringWord s c e 0)) else g.ring.occupied = 0
  let own := match e with
    | 4 => (k.v.landings.all fun x => !x.isEntry) && k.v.push.isEmpty && !k.v.loop.getLsbD 31
    | 5 => k.m.cmds.isEmpty && k.m.leasing.isNone && !k.m.request
    | 6 => k.copies = 0
    | _ => (mapFind e k.run).isNone && (mapFind e k.prog).isNone
  empty && g.held.isEmpty && own

/-- The engines a mask of R187 names: bit i stands for engine i + 1. -/
def enginesOf (m : BitVec 6) : List Nat := ([1, 2, 3, 4, 5, 6] : List Nat).filter fun e => m.getLsbD (e - 1)

/-- R16, R187: starts the engines; an engine without a ring traps first, then one not through `rdv`. -/
def execFork (g : BitVec 3) (e : BitVec 6) (s : State) : Host.Outcome State Fault Refusal :=
  .next (scalar g (fun s =>
    let c := s.cur.1
    let l := enginesOf e
    if l.any fun i => !(s.me.engine i).ring.declared then .trap 0x26 0 none s
    else if l.any fun i => (s.me.engine i).ring.forked then .trap 0x25 0 none s
    else
      let (r, s) := releaseS s c
      let cy := s.me.cy
      .ok (l.foldl (fun s i => s.modEng c i fun x => { x with ring := { x.ring with forked := true, start := cy + 3, forkRel := some r } }) s) none 1 .other) s)

/-- What an idle engine releases at `rdv` (R106): the effects of its retired entries, the last of which ended the interval
before its current one (R112). Those of the copy ring are what its channels' completed entries released (agent 7; log entry 16). -/
def retiredRel (s : State) (c e : Nat) : Rel :=
  let r := releaseOf s c (if e = 6 then 7 else e)
  { r with ivl := r.ivl - 1 }

/-- Stops the named engines once all of them are idle, and acquires what they retired (R16, R106). -/
def rdvEffect (s : State) (c : Nat) (l : List Nat) : State :=
  l.foldl (fun s i =>
    if ((s.core c).engine i).ring.forked then
      acquireBy (s.modEng c i fun x => { x with ring := { x.ring with forked := false } }) c 0 0 (retiredRel s c i)
    else s) s

/-- The forked engines of a list are idle. -/
def allIdle (s : State) (c : Nat) (l : List Nat) : Bool := l.all fun i => !((s.core c).engine i).ring.forked || engineIdle s c i

/-- R16, R187. -/
def execRdv (g : BitVec 3) (e : BitVec 6) (s : State) : Host.Outcome State Fault Refusal :=
  .next (scalar g (fun s =>
    let c := s.cur.1
    if allIdle s c (enginesOf e) then .ok (rdvEffect s c (enginesOf e)) none 1 .other else .wait .stalled s) s)

/-- R188: pushes a token from S, or arrives at the barrier network. -/
def execTksig (g e : BitVec 3) (s : State) : Host.Outcome State Fault Refusal :=
  .next (scalar g (fun s =>
    let c := s.cur.1
    if e = 0 then .trap 0x21 0 none s
    else if !s.allPerformed then .wait .stalled s
    else
      let (r, t) := releaseS s c
      if e = 7 then .ok (netArrive t c r) none 1 .other
      else
        match pushTok t c 0 e.toNat r with
        | some t => .ok t none 1 .other
        | none => .wait .stalled s) s)

/-- R188: pops a token to S, or a completion token, and acquires. -/
def execTkwait (g e : BitVec 3) (s : State) : Host.Outcome State Fault Refusal :=
  .next (scalar g (fun s =>
    let c := s.cur.1
    if e = 0 then .trap 0x21 0 none s
    else if e = 7 then
      match netAvail s.me with
      | some t => .ok (acquireBy (popNet s c) c 0 1 t.rel) none 1 .other
      | none => .wait .stalled s
    else
      match tokAvail s.me e.toNat 0 with
      | some t => .ok (acquireBy (popTok s c e.toNat 0) c 0 0 t.rel) none 1 .other
      | none => .wait .stalled s) s)

/-- R189: writes a word at the tail of a fed ring: a plain write of S in class oc0 (R90, R111; log entry 16). -/
def execEnq (g : BitVec 3) (e b : BitVec 5) (s : State) : Host.Outcome State Fault Refusal :=
  .next (scalar g (fun s =>
    let c := s.cur.1
    let r := (s.me.engine e.toNat).ring
    if !r.declared then .trap 0x26 0 none s
    else if r.isStatic then .trap 0x24 0 none s
    else if r.size ≤ r.occupied then .wait .stalled s
    else
      let u := whoS s c
      let pa := coreBase c + r.base + 8 * (r.tail % r.size)
      let v := s.x b
      if watermarkStall s u pa 8 then .wait .stalled (noteStall s (stallMark s u pa 8))
      else
        (raceCheck s u (0x000FFFFFFFF80000 + r.base + 8 * (r.tail % r.size)) pa 0 true).toS s fun _ s =>
          let s := shadowWrite (pokeBytes s u pa (natBytes v.toNat 8) true) u pa 0 true false
          let (rel, s) := releaseS s c
          let cy := s.me.cy
          .ok (s.modEng c e.toNat fun x =>
            { x with ring := { x.ring with tail := (r.tail + 1) % (2 * r.size), words := mapSet r.tail ⟨rel, cy + 3⟩ x.ring.words } }) none 1 .other) s)

/-- Whether V has issued every entry enqueued so far (R190). -/
def vDrained (k : Core) : Bool := (k.engine 4).ring.occupied = 0 && !k.v.loop.getLsbD 31 && k.v.next ≤ k.cy

/-- Puts a landing in landing order; landings of one cycle keep issue order (R25, R329). -/
def landInsert (x : Landing) : List Landing → List Landing
  | [] => [x]
  | y :: r => if x.due < y.due then x :: y :: r else y :: landInsert x r

/-- R190: a broadcast register, landing two cycles later; on a fed V ring S first waits for V. -/
def execKsend (g : BitVec 3) (k : BitVec 4) (b : BitVec 5) (s : State) : Host.Outcome State Fault Refusal :=
  .next (scalar g (fun s =>
    let c := s.cur.1
    let r := (s.me.engine 4).ring
    if r.declared && !r.isStatic && !vDrained s.me then .wait .stalled s
    else
      let v := (s.x b).setWidth 32
      .ok (s.modCore c fun x =>
        { x with v := { x.v with landings := landInsert { due := x.cy + 2, targets := [.kreg k.toNat v], signal := 0, rel := Rel.none, isEntry := false, word := 0, addr := 0 } x.v.landings } }) none 1 .other) s)

/-- R191, R227: takes the oldest inbox entry: the value to the first destination, the engine's number to the second; it acquires nothing. -/
def execIpop (g : BitVec 3) (d a : BitVec 5) (s : State) : Host.Outcome State Fault Refusal :=
  .next (scalar g (fun s =>
    let c := s.cur.1
    if d = a ∧ d ≠ 0 then .trap 0x02 0 none s
    else
      match s.me.q.inbox with
      | [] => .wait .stalled s
      | x :: r =>
        if x.ready ≤ s.me.cy then
          let s := progress (s.modQ c fun q => { q with inbox := r }) c
          .ok ((s.setX d x.value 1).setX a (BitVec.ofNat 64 x.tag) 1) none 1 .other
        else .wait .stalled s) s)

end Sys2Proof.Machine
end

