-- ==== Sys2Proof/Machine/Objects.lean ====
section
/-! DEFINITION. Tile descriptors and handles, barrier objects and beam maps (R78 to R88, R96, R97, R192 to R195). -/
namespace Sys2Proof.Machine

/-- R192 in the order of R173: outside every window, the wrong memory, misaligned. -/
def objectTrap (va n : Nat) (sp : Space) : Option Nat :=
  match spaceOf va with
  | none => some 0x10
  | some x => if x ≠ sp then some 0x13 else if va % 16 ≠ 0 then some 0x11 else if spaceOf (va + n - 1) ≠ some sp then some 0x10 else none

/-! ### Descriptors (R85 to R88, R193) -/

/-- The fields of a 32-byte descriptor image (R85). DESIGN CHOICE (log entry 57): its reserved bits are dropped, and an EBASE
beside a plain format is kept. -/
def descOf (b : List Byte) : Desc :=
  let f (o n : Nat) := bytesNat ((b.drop o).take n)
  { valid := f 30 1 % 2 = 1, readOnly := f 30 1 / 2 % 2 = 1, gen := f 29 1, format := f 28 1, stride := f 24 4
    cols := f 20 4, rows := f 16 4, ebase := BitVec.ofNat 64 (f 8 8 % 2 ^ 52), base := BitVec.ofNat 64 (f 0 8 % 2 ^ 52), inflight := 0 }

/-- The 32-byte image of a descriptor (R85). -/
def descBytes (d : Desc) : List Byte :=
  natBytes d.base.toNat 8 ++ natBytes d.ebase.toNat 8 ++ natBytes d.rows 4 ++ natBytes d.cols 4 ++ natBytes d.stride 4
    ++ natBytes d.format 1 ++ natBytes d.gen 1 ++ natBytes ((if d.valid then 1 else 0) + if d.readOnly then 2 else 0) 1 ++ natBytes 0 1

/-- R86, with the ranges of R85. -/
def descValid (d : Desc) : Bool :=
  let common := d.base.toNat % 16 = 0 && d.stride % 16 = 0 && 1 ≤ d.cols && d.cols ≤ 2 ^ 20 && 1 ≤ d.rows && d.rows ≤ 2 ^ 20
  match elemBytes d.format, blockWidth d.format with
  | some w, _ => common && d.cols * w ≤ d.stride
  | none, some m => common && d.cols % 32 = 0 && d.stride % (4 * m) = 0 && d.cols * m / 8 ≤ d.stride
  | none, none => false

/-- A descriptor slot of a context; the in-flight count of its commands (R85, R87). -/
def Ctx.slot (x : Ctx) (i : Nat) : Desc := mapGet Desc.reset i x.slots
def State.modSlot (s : State) (ctx i : Nat) (f : Desc → Desc) : State :=
  s.modCtx ctx fun x => { x with slots := mapMod Desc.reset i f x.slots }

/-- R87: the handle check. A success latches the descriptor. -/
def handleCheck (s : State) (ctx h : Nat) : Option Desc :=
  let d := (s.ctx ctx).slot (h % 4096)
  if d.valid && d.gen = h / 4096 % 256 then some d else none

/-- An atomic read of n bytes of an object, by S, in class oc0 (R110, R113). -/
def objRead (s : State) (c va n : Nat) : Got (List Byte × Place) :=
  let u := whoS s c
  (place s u va false false).bind fun p s =>
    if watermarkStall s u p.pa n then .stall (stallMark s u p.pa n)
    else if rangePoisoned s p.pa n then .trap (poisonCause p.pa) none s
    else .ok (memBytes s.mem p.pa n, p) (observe s c p.pa n 0)
/-- An atomic write of bytes of an object, by S, in class oc0; full-empty bits unchanged (R110, R113). -/
def objWrite (s : State) (c va : Nat) (b : List Byte) : Got Place :=
  let u := whoS s c
  (place s u va true false).bind fun p s =>
    if watermarkStall s u p.pa b.length then .stall (stallMark s u p.pa b.length) else .ok p (publish (pokeBytes s u p.pa b true) c p.pa b.length 0)

/-- A write that belongs to an atomic update of an object in cluster memory (R79, R110, R199): one of S in class oc0 carries its fence (R113). -/
def updatePoke (s : State) (w : Who) (pa : Nat) (b : List Byte) : State :=
  let s := pokeBytes s w pa b true
  if w.agent = 0 then publish s w.core pa b.length 0 else s

/-- R193: writes a free slot from an image once no command is in flight on it. -/
def execHset (g : BitVec 3) (d a b : BitVec 5) (s : State) : Host.Outcome State Fault Refusal :=
  .next (scalar g (fun s =>
    let c := s.cur.1
    let va := (s.x b).toNat
    match objectTrap va 32 .core with
    | some cause => .trap cause 0 none s
    | none =>
      (objRead s c va 32).toS s fun (img, _) s =>
        let ctx := s.me.ctx
        let slot := (s.x a).toNat % 4096
        let old := (s.ctx ctx).slot slot
        let new := descOf img
        if old.valid || !descValid new then .trap 0x42 0 none s
        else if old.inflight ≠ 0 then .wait .stalled s
        else
          let s := s.modSlot ctx slot fun o => { new with valid := true, gen := o.gen, inflight := o.inflight }
          .ok (s.setX d (BitVec.ofNat 64 (old.gen * 4096 + slot)) 12) none 1 .other) s)

/-- R88, R193: clears VALID and increments GEN modulo 256. -/
def execHfree (g : BitVec 3) (a : BitVec 5) (s : State) : Host.Outcome State Fault Refusal :=
  .next (scalar g (fun s =>
    let ctx := s.me.ctx
    let h := (s.x a).toNat
    if 2 ^ 20 ≤ h then .trap 0x41 0 none s
    else
      match handleCheck s ctx h with
      | none => .trap 0x41 0 none s
      | some _ => .ok (s.modSlot ctx (h % 4096) fun o => { o with valid := false, gen := (o.gen + 1) % 256 }) none 4 .other) s)

/-- R193: writes the slot's descriptor to core memory and gives its state. -/
def execHget (g : BitVec 3) (d a b : BitVec 5) (s : State) : Host.Outcome State Fault Refusal :=
  .next (scalar g (fun s =>
    let c := s.cur.1
    let va := (s.x b).toNat
    match objectTrap va 32 .core with
    | some cause => .trap cause 0 none s
    | none =>
      let slot := (s.x a).toNat % 4096
      let o := (s.ctx s.me.ctx).slot slot
      (objWrite s c va (descBytes o)).toS s fun _ s =>
        .ok (s.setX d (BitVec.ofNat 64 ((if o.valid then 2 ^ 20 else 0) + o.gen * 4096 + slot)) 12) none 1 .other) s)

/-! ### Barrier objects (R78 to R81, R194) -/

/-- A barrier object's fields (R78). -/
structure Barrier where
  expect : Nat
  arrived : Nat
  pending : Nat
  phase : Nat
  deriving DecidableEq, Repr

def barrierAt (m : List Host.Cell) (pa : Nat) : Barrier :=
  ⟨memNat m pa 2, memNat m (pa + 2) 2, memNat m (pa + 4) 5, memNat m (pa + 12) 4⟩

/-- One update of a barrier (R79, R80): adds to ARRIVED and PENDING, and completes the phase when ARRIVED = EXPECT and
PENDING = 0. None when the update is refused with cause 0x43. The Bool says that a phase completed. -/
def barrierUpdate (b : Barrier) (arrive : Nat) (pend : Int) : Option (Barrier × Bool) :=
  let p : Int := b.pending + pend
  if b.expect = 0 ∨ p < 0 ∨ (2 : Int) ^ 40 - 1 < p ∨ b.expect < b.arrived + arrive then none
  else
    let n : Barrier := { b with arrived := b.arrived + arrive, pending := p.toNat }
    if n.arrived = n.expect && n.pending = 0 then some ({ n with arrived := 0, phase := (n.phase + 1) % 2 ^ 32 }, true)
    else some (n, false)

/-- Writes a barrier's fields; bytes 11 to 9 are kept (R78). -/
def barrierPut (s : State) (w : Who) (pa : Nat) (b : Barrier) : State :=
  updatePoke (updatePoke s w pa (natBytes b.expect 2 ++ natBytes b.arrived 2 ++ natBytes b.pending 5)) w (pa + 12) (natBytes b.phase 4)

/-- One table that holds the latest of several releases, by unit. -/
def mergeRels (l : List Rel) : List Rel :=
  let t := (l.flatMap (Rel.ents 0)).foldl (fun t e => tabTouch e t) []
  [{ unit := Rel.none.unit, ivl := 0, tab := t }]

/-- A completed phase releases every wait on its barrier that names the old phase (R79): six cycles later S goes on (R208). -/
def releaseWaits (s : State) (k pa phase : Nat) : State :=
  (List.range 8).foldl (fun s i => s.modCore (k * 8 + i) fun x => if x.su.wait = .bar pa phase then { x with su := { x.su with wait := .passed, next := x.cy } } else x) s

/-- Applies an update of a unit to the barrier at a physical address (R79): the releases of a completed phase pass to
those who wait for it. Gives the fields before. -/
def barrierApply (s : State) (w : Who) (pa arrive : Nat) (pend : Int) (rels : List Rel) : Option (Barrier × State) :=
  let b := barrierAt s.mem pa
  match barrierUpdate b arrive pend with
  | none => none
  | some (n, full) =>
    let s := barrierPut s w pa n
    let s := if full then releaseWaits s w.cluster pa b.phase else s
    some (b, s.modCluster w.cluster fun u =>
      let r := mapGet ⟨[], []⟩ pa u.bars
      let now := r.now ++ rels
      { u with bars := mapSet pa (if full then ⟨[], mergeRels (r.done ++ now)⟩ else ⟨now, r.done⟩) u.bars })

/-- A barrier instruction on the object at s[ra]. -/
def onBarrier (s : State) (va : Nat) (f : Place → State → SRes) : SRes :=
  match objectTrap va 16 .cluster with
  | some cause => .trap cause 0 none s
  | none => (objRead s s.cur.1 va 16).toS s fun (_, p) s => f p s

/-- R194: *expect*. -/
def execBexp (g : BitVec 3) (a b : BitVec 5) (s : State) : Host.Outcome State Fault Refusal :=
  .next (scalar g (fun s =>
    onBarrier s (s.x a).toNat fun p s =>
      let n := (s.x b).toNat
      if 2 ^ 40 ≤ n then .trap 0x43 0 none s
      else
        match barrierApply s (whoS s s.cur.1) p.pa 0 n [] with
        | none => .trap 0x43 0 none s
        | some (_, s) => .ok s none 10 .other) s)

/-- R194: *arrive*; the phase before the update goes to rd. A release (R106). -/
def execBarr (g : BitVec 3) (d a : BitVec 5) (s : State) : Host.Outcome State Fault Refusal :=
  .next (scalar g (fun s =>
    let c := s.cur.1
    onBarrier s (s.x a).toNat fun p s =>
      match barrierApply s (whoS s c) p.pa 1 0 [releaseOf s c 0] with
      | none => .trap 0x43 0 none s
      | some (b, s) => .ok ((bumpUnit s c 0).setX d (BitVec.ofNat 64 b.phase) 10) none 1 .other) s)

/-- The completion of a wait on the barrier at an address: it acquires the completed phases (R79, R106). -/
def waitDone (s : State) (c pa lat : Nat) : SRes :=
  .ok ((mapGet ⟨[], []⟩ pa (s.cluster (clusterOf c)).bars).done.foldl (fun s x => acquireBy s c 0 1 x) s) none lat .other

/-- R79, R81, R194: a wait completes at once when PHASE differs at its issue; an outstanding one is released by a completion of
the phase it names, and by nothing else. -/
def execBwait (g : BitVec 3) (a b : BitVec 5) (s : State) : Host.Outcome State Fault Refusal :=
  .next (scalar g (fun s =>
    let c := s.cur.1
    let va := (s.x a).toNat
    if s.me.su.wait = .passed then waitDone s c (clusterBase (clusterOf c) + (va - 0x000FFFFFFF000000)) (max 1 (s.me.su.next + 6 - s.me.cy))
    else
      onBarrier s va fun p s =>
        let bar := barrierAt s.mem p.pa
        if bar.expect = 0 then .trap 0x43 0 none s
        else if bar.phase = (s.x b).toNat % 2 ^ 32 then .wait (.bar p.pa bar.phase) s
        else waitDone s c p.pa 6) s)

/-! ### Beam maps (R96, R97, R195) -/

/-- A beam-map header (R96). -/
structure BmHeader where
  nseq : Nat
  nbeam : Nat
  nlblk : Nat
  deriving DecidableEq, Repr

/-- The header of a beam map (R96). DESIGN CHOICE (log entry 76): counts outside their ranges are taken as they stand, and bytes 6 to 15 are not read. -/
def bmHeader (b : List Byte) : BmHeader := ⟨bytesNat (b.take 2), bytesNat ((b.drop 2).take 2), bytesNat ((b.drop 4).take 2)⟩

/-- The fields of a packed beam index (R195). -/
def bmSeq (i : Nat) : Nat := i / 2 ^ 32 % 4096
def bmBeam (i : Nat) : Nat := i / 2 ^ 16 % 64
def bmLblk (i : Nat) : Nat := i % 65536

/-- The index checks of R195. -/
def bmIndexOk (h : BmHeader) (i : Nat) : Bool :=
  i / 2 ^ 22 % 1024 = 0 && i / 2 ^ 44 = 0 && bmSeq i < h.nseq && bmBeam i < h.nbeam && bmLblk i < h.nlblk

/-- Byte offset of an entry (R96). -/
def bmOffset (h : BmHeader) (seq beam lblk : Nat) : Nat := 16 + 8 * ((seq * h.nbeam + beam) * h.nlblk + lblk)

/-- Pulses of a beam-map instruction, from where its header lies (R208, R351, R358). -/
def bmCycles (c : Nat) (p : Place) : Nat := 150 + p.extra + legCy (dieOf c) (dieOfPa p.pa)

/-- R195: one atomic write of an entry. -/
def execBmset (g : BitVec 3) (d a b : BitVec 5) (s : State) : Host.Outcome State Fault Refusal :=
  .next (scalar g (fun s =>
    let c := s.cur.1
    let map := (s.x a).toNat
    match objectTrap map 16 .device with
    | some cause => .trap cause 0 none s
    | none =>
      (objRead s c map 16).toS s fun (hb, p) s =>
        let h := bmHeader hb
        let i := (s.x d).toNat
        let e := (s.x b).toNat
        if !bmIndexOk h i || e / 2 ^ 36 % 2 ^ 25 ≠ 0 then .trap 0x17 0 none s
        else
          (objWrite s c (map + bmOffset h (bmSeq i) (bmBeam i) (bmLblk i)) (natBytes e 8)).toS s fun q s =>
            .ok (s.holdsFar (bmCycles c p + q.extra)) none 1 .other) s)

/-- What a `bmcopy` has read of its map, or reads now when it has not begun (R195). -/
def bmRead (s : State) (c map : Nat) : Got (BmHeader × Nat) :=
  match s.me.su.bm with
  | [x, y, z, cyc] => .ok (⟨x, y, z⟩, cyc) s
  | _ => (objRead s c map 16).bind fun r s => .ok (bmHeader r.1, bmCycles c r.2) s

/-- What a `bmcopy` finds of its entries before it writes the first: an instruction that traps writes nothing (R173), so each line of 64 bytes of
both beams is placed, and read where it is a source. The tables stay as they are. DESIGN CHOICE (log entry 74): what changes while it runs can still stop it
at a later step. -/
def bmMay (s : State) (c : Nat) (h : BmHeader) (map dst src : Nat) : Got Unit :=
  (((List.range ((h.nlblk + 7) / 8)).map (8 * ·)) ++ [h.nlblk - 1]).foldl (fun g i =>
    g.bind fun _ _ => (place s (whoS s c) (map + bmOffset h (bmSeq src) (bmBeam src) i) false false).bind fun p _ =>
      if rangePoisoned s p.pa 8 then .trap (poisonCause p.pa) none s
      else (place s (whoS s c) (map + bmOffset h (bmSeq dst) (bmBeam dst) i) true false).bind fun _ _ => .ok () s) (.ok () s)

/-- R97, R195: reads the header first, then copies the entries of a beam, one entry per cycle and each atomically; it keeps the
steps done when it is held up (R174). -/
def execBmcopy (g : BitVec 3) (d a b : BitVec 5) (s : State) : Host.Outcome State Fault Refusal :=
  .next (scalar g (fun s =>
    let c := s.cur.1
    let map := (s.x a).toNat
    match objectTrap map 16 .device with
    | some cause => .trap cause 0 none s
    | none =>
      (bmRead s c map).toS s fun (h, cyc) s =>
        let dst := (s.x d).toNat
        let src := (s.x b).toNat
        let n := s.me.su.steps
        if n = 0 && (!bmIndexOk h dst || !bmIndexOk h src || bmLblk dst ≠ 0 || bmLblk src ≠ 0) then .trap 0x17 0 none s
        else if h.nlblk ≤ n then .ok (s.holdsFar cyc) none 1 .other
        else
          (if n = 0 then bmMay s c h map dst src else .ok () s).toS s fun _ s =>
          (objRead s c (map + bmOffset h (bmSeq src) (bmBeam src) n) 8).toS s fun (e, p) s =>
            (objWrite s c (map + bmOffset h (bmSeq dst) (bmBeam dst) n) e).toS s fun q s =>
              .wait .stalled (s.modS c fun u => { u with steps := n + 1, bm := [h.nseq, h.nbeam, h.nlblk, cyc + p.extra + q.extra] })) s)

end Sys2Proof.Machine
end

