-- ==== Sys2Proof/Machine/Work.lean ====
section
/-! DEFINITION. Dependences, range tasks, join counters, messages and exit (R27 to R30, R196 to R200, R204, R348,
R349), with the arrival of messages, of tag states and of completion tokens. -/
namespace Sys2Proof.Machine

/-! ### Tags (R348, R349) -/

/-- Physical address of a tag's table entry, as the command processor of a die finds it. -/
def tagAddr (s : State) (die ctx : Nat) (tab : W64) (tag : Nat) (write : Bool) : Option Nat := dieAddr s (160 + die) ctx (tab.toNat + 2 * tag) write

/-- A tag's STATE and CAUSE, where its entry translates. -/
def tagRead (s : State) (die ctx : Nat) (tab : W64) (tag : Nat) : Nat × Nat :=
  match tagAddr s die ctx tab tag false with
  | none => (0, 0)
  | some pa => (memNat s.mem pa 1 % 4, memNat s.mem (pa + 1) 1)

/-- Whether a read of a tag's entry would take poison (R367). -/
def tagPoisoned (s : State) (die ctx : Nat) (tab : W64) (tag : Nat) : Bool := (tagAddr s die ctx tab tag false).any fun pa => rangePoisoned s pa 2

/-- The address of the first producer's entry that does not translate (R357). -/
def tagMissing (s : State) (k : Kernel) : Option Nat := (k.prods.find? fun t => (tagAddr s k.die k.ctx k.tagTab t false).isNone).map fun t => k.tagTab.toNat + 2 * t

/-- The key of a tag of a context. -/
def tagKey (ctx tag : Nat) : Nat := ctx * 65536 + tag

/-- How a write that cannot be made ends (R357): its cause, its kind (0 a trap, 1 a suspension) and INFO. DESIGN CHOICE (log entry 65): a write of a
command processor outside device memory takes 0x10. -/
def writeFault (s : State) (ctx va : Nat) : Nat × Nat × Nat :=
  match spaceOf va with
  | some .device =>
    match walkOf s ctx va with
    | .fail cause level _ => (cause, 1, walkInfo level true false)
    | .leaf _ _ => (0x15, 0, 0)
  | _ => (0x10, 0, 0)

/-- Makes the writes that a command processor owes, in their order, up to one that fails, which is reported (R357, R361). -/
def cpDrain (s : State) (die : Nat) : List Owed → State
  | [] => s.modDie die fun d => { d with owed := [] }
  | x :: r =>
    match dieAddr s (160 + die) x.ctx x.va true with
    | some pa => cpDrain (systemWrite s (systemUnit die 16) pa (natBytes x.v x.n)) die r
    | none =>
      let (cause, kind, info) := writeFault s x.ctx x.va
      postRecord (s.modDie die fun d => { d with owed := x :: r, owing := true }) die
        { seq := 0, core := 0xFFFF, unit := 8, cause := cause, ctx := x.ctx, kind := kind, addr := BitVec.ofNat 64 x.va, info := BitVec.ofNat 64 info
          cycle := BitVec.ofNat 32 s.now, owner := die, agent := 100, after := false }

/-- A write of a die's command processor (R339, R348): one that fails suspends or traps the command processor, which makes it, and those that
follow it, once the record is acknowledged (R357, R363). -/
def cpStore (s : State) (die ctx va n v : Nat) : State :=
  let d := s.die die
  if d.owing then s.modDie die fun d => { d with owed := d.owed ++ [⟨ctx, va, n, v⟩] } else cpDrain s die (d.owed ++ [⟨ctx, va, n, v⟩])

/-- The command processor of a die reads n bytes at an address of its context; none where the translation faults or the data are
poisoned. -/
def cpRead (s : State) (die va : Nat) : Nat → Option Nat
  | 0 => some 0
  | n + 1 =>
    match dieAddr s (160 + die) (s.die die).cp.ctx va false with
    | none => none
    | some pa => if rangePoisoned s pa 1 then none else (cpRead s die (va + 1) n).map fun v => (memByte s.mem pa).toNat + 256 * v

/-- The first of n bytes that a command processor cannot read, and whether it is poison that refuses it (R367). -/
def cpFault (s : State) (die va : Nat) : Nat → Option (Nat × Bool)
  | 0 => none
  | n + 1 =>
    match dieAddr s (160 + die) (s.die die).cp.ctx va false with
    | none => some (va, false)
    | some pa => if rangePoisoned s pa 1 then some (va, true) else cpFault s die (va + 1) n

def State.modCp (s : State) (die : Nat) (f : CmdProc → CmdProc) : State := s.modDie die fun d => { d with cp := f d.cp }

/-- A command processor's read of poison: a trap of the unit, which executes nothing until the record is acknowledged (R361, R367; log entry 65). -/
def cpPoison (s : State) (die va : Nat) : State :=
  postRecord (s.modDie die fun d => { d with cpHeld := true }) die
    { seq := 0, core := 0xFFFF, unit := 8, cause := 0x53, ctx := (s.die die).cp.ctx, kind := 0, addr := BitVec.ofNat 64 va, info := 0
      cycle := BitVec.ofNat 32 s.now, owner := die, agent := 101, after := false }
/-- The acknowledgement of such a trap (R363). DESIGN CHOICE (log entry 65): RETRY reads again, SKIP passes over the packet, or over one word where its header
cannot be read. -/
def cpResume (s : State) (die : Nat) (skip : Bool) : State :=
  let p := (s.die die).cp
  let words := ((cpRead s die (p.start.toNat + p.off) 8).map fun h => h / 2 ^ 48 % 256).getD 0
  let s := s.modDie die fun d => { d with cpHeld := false }
  s.modCp die fun q => { q with due := max q.due (s.now + 1), off := if skip then q.off + 8 * (1 + words) else q.off }

/-- Writes a tag's entry as the command processor of a die (R348). -/
def tagWrite (s : State) (die ctx : Nat) (tab : W64) (tag state cause : Nat) : State :=
  cpStore s die ctx (tab.toNat + 2 * tag) 2 (state + 256 * cause)

/-- Announces a change of a tag to every die of the producer's partition (R349, R380): the producer's own dies see it ten cycles later, the others one
leg after that. -/
def tagAnnounce (s : State) (dies : List Nat) (key : Nat) : State :=
  (partDies s (dies.headD 0)).foldl (fun s d =>
    let leg := (dies.map fun e => legCy e d).foldl min 290
    s.send (s.now + 10 + leg) (fun id => .tagStateArrival id) (.tag d key)) s

/-- The kernel entry of a sequence number. -/
def kernelOf (s : State) (seq : Nat) : Option Kernel :=
  match mapFind seq s.sb with
  | some (.kernel k) => some k
  | _ => none
def setKernel (s : State) (seq : Nat) (k : Kernel) : State := { s with sb := mapSet seq (.kernel k) s.sb }

/-- A strand triggers (R196): only its first trigger counts; the last strand's makes the tag TRIGGERED (R348). -/
def triggerStrand (s : State) (c : Nat) : State :=
  if (s.core c).su.triggered then s
  else
    let (rel, s) := releaseS s c
    let s := s.modS c fun u => { u with triggered := true }
    let seq := (s.core c).kern
    match kernelOf s seq with
    | none => s
    | some k =>
      let key := tagKey k.ctx k.tag
      let s := { s with tagRel := mapSet key ((mergeRels (rel :: (mapFind key s.tagRel).toList)).headD Rel.none) s.tagRel }
      let k := { k with toTrigger := k.toTrigger - 1 }
      if k.toTrigger = 0 && k.tagState = 1 then
        tagAnnounce (tagWrite (setKernel s seq { k with tagState := 2 }) k.die k.ctx k.tagTab k.tag 2 0) k.dies key
      else setKernel s seq k

/-- A strand is ended by DISCARD: a pending tag becomes FAULTED with the strand's first reported cause (R348). -/
def faultTag (s : State) (seq cause : Nat) : State :=
  match kernelOf s seq with
  | none => s
  | some k =>
    if k.tagState = 1 then
      tagAnnounce (tagWrite (setKernel s seq { k with tagState := 3 }) k.die k.ctx k.tagTab k.tag 3 cause) k.dies (tagKey k.ctx k.tag)
    else s

/-- R349: whether a producer's tag is decided as the dies of a core see it: 0 waits, 1 triggered, else 256 + cause. -/
def producerState (s : State) (die : Nat) (k : Kernel) (tag : Nat) : Nat :=
  let key := tagKey k.ctx tag
  if s.flights.any fun f => f.2 = .tag die key then 0
  else
    match tagRead s k.die k.ctx k.tagTab tag with
    | (1, _) => 0
    | (3, cause) => 256 + cause
    | _ => 1

/-- R196: waits for every producer, then acquires; the status names the first faulted producer's cause. A later one repeats the
first one's result. An entry of the table that does not translate is walked for, which suspends S where the walk fails (R357); DESIGN CHOICE (log entry
65): a table outside device memory traps with 0x10. -/
def execDwait (g : BitVec 3) (d : BitVec 5) (p : BitVec 3) (s : State) : Host.Outcome State Fault Refusal :=
  .next (scalar g (fun s =>
    let c := s.cur.1
    let give (v : Nat) (s : State) : SRes :=
      .ok (((s.modS c fun u => { u with dwaited := some v }).setX d (BitVec.ofNat 64 v) 4).setP p (v = 0) 4) none 1 .other
    match s.me.su.dwaited, kernelOf s s.me.kern with
    | some v, _ => give v s
    | none, none => give 0 s
    | none, some k =>
      let st := k.prods.map (producerState s (dieOf c) k)
      match tagMissing s k with
      | some va => if spaceOf va = some .device then .miss va false false s else .trap 0x10 0 none s
      | none =>
      if k.prods.any (tagPoisoned s k.die k.ctx k.tagTab) then .trap 0x53 0 none s
      else if st.contains 0 then .wait .stalled s
      else
        let s := k.prods.foldl (fun s t =>
          match mapFind (tagKey k.ctx t) s.tagRel with
          | some r => acquireBy s c 0 3 r
          | none => s) s
        give ((st.find? (256 ≤ ·)).getD 0) s) s)

/-- R196. -/
def execTrig (g : BitVec 3) (s : State) : Host.Outcome State Fault Refusal :=
  .next (scalar g (fun s => .ok (triggerStrand s s.cur.1) none 10 .other) s)

/-- A change of a tag has reached a die (R349): nothing hides it there any longer. -/
def execTagStateArrival (id : Nat) (s : State) : Host.Outcome State Fault Refusal :=
  match mapFind id s.flights with
  | some (.tag _ _) => .next { s with flights := mapDel id s.flights }
  | _ => .refused .notEnabled

/-! ### Range tasks (R27, R197, R198) -/

def clusterCores (k : Nat) : List Nat := (List.range 8).map (k * 8 + ·)
def remaining (s : State) (c : Nat) : Nat := (s.core c).rint.2 - (s.core c).rint.1
def setRint (s : State) (c : Nat) (i : Nat × Nat) : State := s.modCore c fun k => { k with rint := i }

/-- R197. -/
def execRtnew (g : BitVec 3) (d a b : BitVec 5) (s : State) : Host.Outcome State Fault Refusal :=
  .next (scalar g (fun s =>
    let c := s.cur.1
    let k := clusterOf c
    let lo := (s.x a).toNat
    let hi := (s.x b).toNat
    let gr := (s.x d).toNat
    if 2 ^ 32 ≤ lo ∨ 2 ^ 32 ≤ hi ∨ hi < lo ∨ gr = 0 ∨ 2 ^ 32 ≤ gr ∨ (clusterCores k).any (fun i => 0 < remaining s i) ∨ !(s.cluster k).task.free.isEmpty then
      .trap 0x4A 0 none s
    else
      let s := (clusterCores k).foldl (fun s i => setRint s i (0, 0)) s
      .ok (setRint (s.modCluster k fun u => { u with task := { u.task with grain := gr } }) c (lo, hi)) none 6 .other) s)

/-- A claim on a core's own interval (R27): what it claims, and the state after. -/
def claim (s : State) (c : Nat) : (Nat × Nat) × State :=
  let (a, b) := (s.core c).rint
  let m := min (a + (s.cluster (clusterOf c)).task.grain) b
  ((a, m), setRint s c (m, b))

/-- The core with the longest remaining interval, the lowest number on a tie (R27). -/
def longest (s : State) (k : Nat) : Nat :=
  (clusterCores k).foldl (fun best c => if remaining s best < remaining s c then c else best) (k * 8)

/-- R198. -/
def execRtclaim (g : BitVec 3) (d a : BitVec 5) (p : BitVec 3) (s : State) : Host.Outcome State Fault Refusal :=
  .next (scalar g (fun s =>
    let c := s.cur.1
    let k := clusterOf c
    let give (r : (Nat × Nat) × State) (lat : Nat) : SRes :=
      .ok (((r.2.setX d (BitVec.ofNat 64 r.1.1) lat).setX a (BitVec.ofNat 64 r.1.2) lat).setP p true lat) none 1 .other
    if d = a ∧ d ≠ 0 then .trap 0x02 0 none s
    else if 0 < remaining s c then give (claim s c) 6
    else
      let t := (s.cluster k).task
      match t.conts with
      | (cont, addr, rels) :: r =>
        let s := s.modCluster k fun u => { u with task := { u.task with conts := r } }
        let s := rels.foldl (fun s x => acquireBy s c 0 1 x) s
        .ok (((s.setX d cont 6).setX a (BitVec.ofNat 64 (2 ^ 63) ||| addr) 6).setP p true 6) none 1 .other
      | [] =>
        match t.free with
        | i :: r => give (claim (setRint (s.modCluster k fun u => { u with task := { u.task with free := r } }) c i) c) 6
        | [] =>
          let o := longest s k
          let (x, y) := (s.core o).rint
          if 2 * t.grain ≤ y - x then
            let mid := x + (y - x) / 2
            give (claim (setRint (setRint s o (x, mid)) c (mid, y)) c) 12
          else .ok (((s.setX d 0 6).setX a 0 6).setP p false 6) none 1 .other) s)

/-! ### Join counters (R28, R199) -/

/-- One `done` on the join counter at a physical address of a cluster's memory: none for a zero count; the stall of a
full continuation queue is an empty result. `err` is set when system software completes it for a faulted child. -/
def doneUpdate (s : State) (w : Who) (pa : Nat) (va : W64) (err : Bool) (rel : Rel) : Option (Option State) :=
  let pend := memNat s.mem pa 4
  if pend = 0 then none
  else
    let u := s.cluster w.cluster
    if pend = 1 && 16 ≤ u.task.conts.length then some none
    else
      let flags := memNat s.mem (pa + 4) 1
      let s := updatePoke s w pa (natBytes (pend - 1) 4 ++ natBytes (if err then flags ||| 1 else flags) 1)
      let r := (mapGet ⟨[], []⟩ pa u.bars).now ++ [rel]
      some (some (s.modCluster w.cluster fun u =>
        if pend = 1 then
          { u with bars := mapDel pa u.bars, task := { u.task with conts := u.task.conts ++ [(BitVec.ofNat 64 (memNat s.mem (pa + 8) 8), va, r)] } }
        else { u with bars := mapSet pa ⟨r, []⟩ u.bars }))

/-- R199. -/
def execDone (g : BitVec 3) (a : BitVec 5) (s : State) : Host.Outcome State Fault Refusal :=
  .next (scalar g (fun s =>
    let c := s.cur.1
    onBarrier s (s.x a).toNat fun p s =>
      match doneUpdate s (whoS s c) p.pa (s.x a) false (releaseOf s c 0) with
      | none => .trap 0x48 0 none s
      | some none => .wait .stalled s
      | some (some s) => .ok (bumpUnit s c 0) none 10 .other) s)

/-! ### What belongs to a context (R63, R172, R236, R240, R245) -/

/-- What a core holds that belongs to its context, and a core that holds another context's. -/
def Core.ofContext (k : Core) : CtxCore := ⟨k.rm, k.v.coder, k.v.q, k.v.cdf⟩
def Core.withContext (k : Core) (x : CtxCore) : Core := { k with rm := x.rm, v := { k.v with coder := x.coder, q := x.q, cdf := x.cdf } }
/-- A core passes to a strand of a context: what belongs to the context that had it is kept for it, and the new one finds its own as it left it,
or as its creation set it (log entry 27). -/
def swapContext (s : State) (ctx core : Nat) : State :=
  let k := s.core core
  if k.ctx = ctx then s
  else
    let s := if (s.ctx k.ctx).live then s.modCtx k.ctx fun x => { x with cores := mapSet core k.ofContext x.cores } else s
    (s.setCore core { k.withContext (mapGet CtxCore.reset core (s.ctx ctx).cores) with ctx := ctx }).modCtx ctx fun x => { x with cores := mapDel core x.cores }

/-! ### Messages (R30, R200, R372) -/

/-- The CORE.ID word of a core (R10). -/
def coreId (s : State) (c : Nat) : W64 :=
  BitVec.ofNat 64 ((s.core c).stage * 2 ^ 20 + dieOf c * 2 ^ 18 + (clusterOf c % 40) * 2 ^ 12 + laneOf c * 2 ^ 9)

/-- Messages on their way to a core. -/
def inFlight (s : State) (c : Nat) : Nat := (s.flights.filter fun f => match f.2 with | .msg d _ => d = c | _ => false).length

/-- The clusters of a rectangle, and those and the cores of a kernel entry, in launch-relative order (R9). -/
def rectClusters (dies : List Nat) (cfirst clast : Nat) : List Nat := dies.flatMap fun d => (List.range (clast + 1 - cfirst)).map fun i => d * 40 + cfirst + i
def Kernel.clusters (k : Kernel) : List Nat := rectClusters k.dies k.cfirst k.clast
def Kernel.cores (k : Kernel) : List Nat := k.clusters.flatMap clusterCores
/-- Where a cluster stands in a launch (R9). -/
def Kernel.lclus (k : Kernel) (c : Nat) : Nat := (k.clusters.findIdx? (· = clusterOf c)).getD 0

/-- The stage that a core holds for an instance (R9, R30): its strand's, or that of the strand which an issued launch has yet to
begin there. -/
def stageIn (s : State) (kern c : Nat) : Option Nat :=
  let k := s.core c
  if k.kern ≠ kern then none
  else if k.mir.st ≠ .idle then some k.stage
  else if k.launched then (kernelOf s kern).map fun x => x.stages.getD (x.lclus c) 0
  else none

/-- The live strands of an instance that hold a stage, saved ones whose core has taken another among them (R30). -/
def stageCores (s : State) (kern stage : Nat) : List Nat :=
  ((mapKeys s.cores).filter fun c => stageIn s kern c = some stage) ++ (awayOf s kern).filter fun i => (s.strand i).stage = stage

/-- Cycles of a message (R33, R372). -/
def msgCycles (a b : Nat) : Nat :=
  if clusterOf a = clusterOf b then 8 else if dieOf a = dieOf b then 40 else legCy (dieOf a) (dieOf b)

/-- R30, R200: one copy to every live core of the stage, once all of them have space. Inside the cluster it takes cycles of the
domain (R33, R350). DESIGN CHOICE (log entry 70): the sender's next instruction follows in one cycle, for R208 names only R33 for `tmsg`. DESIGN
CHOICE (log entry 73): a copy still on its way to a target counts toward the 32 messages of its queue, so no copy ever meets a full queue. -/
def execTmsg (g : BitVec 3) (a b : BitVec 5) (s : State) : Host.Outcome State Fault Refusal :=
  .next (scalar g (fun s =>
    let c := s.cur.1
    let st := (s.x a).toNat
    let l := stageCores s s.me.kern st
    if 16 ≤ st ∨ l.isEmpty then .trap 0x49 0 none s
    else if l.any fun t => (s.strand t).mir.st = .saved || 32 ≤ (s.core t).q.msgs.length + inFlight s t then .wait .stalled s
    else
      let (rel, s) := releaseS s c
      let m : Msg := ⟨s.x b, coreId s c, rel⟩
      .ok (l.foldl (fun s t =>
        if clusterOf t = clusterOf c then s.sendIn (clusterOf c) ((s.cluster (clusterOf c)).dcy + msgCycles c t) (fun id => .messageArrival id) (.msg t m)
        else s.send (s.now + msgCycles c t) (fun id => .messageArrival id) (.msg t m)) s) none 1 .other) s)

/-- A message reaches its core's queue; it is dropped with the queue of a strand that has ended (R30). -/
def execMessageArrival (id : Nat) (s : State) : Host.Outcome State Fault Refusal :=
  match mapFind id s.flights with
  | some (.msg c m) =>
    let s := { s with flights := mapDel id s.flights }
    .next (if (s.core c).mir.st = .idle && !(s.core c).launched then s else s.modQ c fun q => { q with msgs := q.msgs ++ [m] })
  | _ => .refused .notEnabled

/-- R200: takes the oldest message; only `p0` waits for one. -/
def execTrecv (g : BitVec 3) (d a : BitVec 5) (p : BitVec 3) (s : State) : Host.Outcome State Fault Refusal :=
  .next (scalar g (fun s =>
    let c := s.cur.1
    if d = a ∧ d ≠ 0 then .trap 0x02 0 none s
    else
      match s.me.q.msgs with
      | [] => if p = 0 then .wait .stalled s else .ok (s.setP p false 2) none 1 .other
      | m :: r =>
        let s := acquireBy (s.modQ c fun q => { q with msgs := r }) c 0 3 m.rel
        .ok (((s.setX d m.payload 2).setX a m.sender 2).setP p true 2) none 1 .other) s)

/-! ### The barrier network's completion (R20) -/

/-- Pushes the tokens of the phases that are due, oldest first; a phase with a member that holds 15 stays, and stalls the later ones
of its network (R20). -/
def pushPhases (s : State) (k : Nat) (stalled : List Nat) : List NetPhase → State
  | [] => s
  | p :: r =>
    if (s.cluster k).dcy < p.due || stalled.contains p.kern then pushPhases s k (p.kern :: stalled) r
    else if p.members.any fun c => 15 ≤ (s.strand c).q.net.length then pushPhases s k (p.kern :: stalled) r
    else
      let s := p.members.foldl (fun s c => s.modStrandQ c fun q => { q with net := q.net ++ [⟨p.rel, (s.strand c).cy⟩] }) s
      pushPhases (s.modCluster k fun u => { u with phases := u.phases.erase p }) k stalled r

/-- The network pushes the completion tokens of its phases (R20, R33). -/
def execNetworkCompletionToken (cl : Nat) (s : State) : Host.Outcome State Fault Refusal :=
  let l := (s.cluster cl).phases
  if l.any fun p => p.due ≤ (s.cluster cl).dcy then .next (pushPhases s cl [] l) else .refused .notEnabled

/-! ### exit (R204) -/

/-- A strand that ends leaves its range interval to the unit as a free one (R198). -/
def freeInterval (s : State) (c : Nat) : State :=
  let i := (s.core c).rint
  if i.1 < i.2 then s.modCluster (clusterOf c) fun u => { u with task := { u.task with free := u.task.free ++ [i] } } else s

/-- Ends a strand: its queues are discarded, its core leaves the roster and the network and becomes IDLE, its range
interval is free, and its kernel entry counts it and keeps what its accesses release at retirement (R20, R125, R198, R204,
R330, R345). -/
def endStrand (s : State) (c : Nat) (rels : List Rel) : State :=
  let kern := (s.core c).kern
  let cl := clusterOf c
  let s := freeInterval s c
  let s := s.modCore c fun k =>
    { k with pr := PrismCore.left, q := Queues.reset, mir := { k.mir with st := .idle }, rint := (0, 0), run := [], prog := [], eng := [], copies := 0, v := { k.v with landings := [], push := [] }
             su := { k.su with wait := .idle }, m := { MUnit.reset with age := k.m.age, used := k.m.used, stores := k.m.stores } }
  let s := { s with flights := s.flights.filter fun f => match f.2 with | .msg d _ => d ≠ c | _ => true }
  let orphan (e : CopyEnt) : CopyEnt := if e.core = c && !e.port then { e with live := false } else e
  let s := s.modCluster cl fun u => { u with chans := u.chans.map fun e => (e.1, { e.2 with queue := e.2.queue.map orphan }) }
  let s := netLeave s c cl kern
  let s := voteCheck s cl
  match kernelOf s kern with
  | none => s
  | some k =>
    let k := { k with running := k.running - 1, rels := k.rels ++ rels }
    setKernel s kern { k with retireAt := if k.running = 0 then some (s.now + 30) else none }

/-- Whether a command of M has accesses to make to an array (R283). -/
def MCmd.uses (x : MCmd) (a : Nat) : Bool :=
  match x.ins with
  | .mmul w _ => argF w 39 39 = a
  | .mmul2 _ _ _ => true
  | .mdrain w _ _ => argF w 39 39 = a && decide (x.krow < (x.descs.headD (0, Desc.reset)).2.rows)
  | .mzero w => argF w 39 39 = a
  | _ => false

/-- An array is accessed in this cycle: it can be handed on in the next one (R283). -/
def touchArray (s : State) (k a : Nat) : State :=
  s.modCluster k fun u => if a = 0 then { u with mx0 := { u.mx0 with freeAt := u.dcy + 1 } } else { u with mx1 := { u.mx1 with freeAt := u.dcy + 1 } }

/-- Whether a command of M names an array. -/
def MCmd.names (x : MCmd) (a : Nat) : Bool :=
  match x.ins with
  | .mmul w _ | .mdrain w _ _ | .mzero w => argF w 39 39 = a
  | .mmul2 _ _ _ => true
  | _ => false

/-- Whether a core's lease, or its request, is for an array: those of the designation, and those on which stopped commands resume
(R282, R283, R291; log entry 62). -/
def MUnit.wants (m : MUnit) (a : Nat) : Bool := m.dvalid && (m.desig = a || m.desig = 2) || m.halted && m.cmds.any fun x => x.names a
/-- Whether a core's lease grants an array (R282, R285). -/
def MUnit.grants (m : MUnit) (a : Nat) : Bool := m.held && m.wants a

/-- The arrays that a core's lease no longer grants pass on once the admitted commands have made their last accesses to them, whatever other
array it still holds (R283). -/
def dropArrays (s : State) (c : Nat) : State :=
  let k := s.core c
  let f (a : Nat) (o : ArrayOwn) : ArrayOwn :=
    if o.core = some c && !k.m.grants a && (k.m.halted || !k.m.cmds.any fun x => x.uses a) then { o with core := none } else o
  s.modCluster (clusterOf c) fun u => { u with mx0 := f 0 u.mx0, mx1 := f 1 u.mx1 }

/-- Ends a core's lease, or withdraws its request (R283). -/
def endLease (s : State) (c : Nat) : State :=
  let k := s.core c
  let s := if k.m.held then s.modM c fun m => { m with held := false, granted := none, age := min 8192 (k.cy - m.grant) } else s
  dropArrays (s.modM c fun m => { m with request := false }) c

/-- The steps of an `exit` whose waits are over (R204): it releases, triggers unless the strand has triggered, and ends the
strand. -/
def finishExit (s : State) (c : Nat) : State :=
  let rel := releaseOf s c 0
  let s := if s.me.su.triggered then bumpUnit s c 0 else triggerStrand s c
  endStrand (endLease s c) c [rel]

/-- R204: waits as `rdv` would, then until every access of S has performed; S records the steps done (R174). -/
def execExit (g : BitVec 3) (s : State) : Host.Outcome State Fault Refusal :=
  let c := s.cur.1
  let all : List Nat := [1, 2, 3, 4, 5, 6]
  .next (
    if s.pred g then
      if s.me.su.steps = 0 && !allIdle s c all then s.modS c fun u => { u with wait := .stalled }
      else
        let t := if s.me.su.steps = 0 then (rdvEffect s c all).modS c fun u => { u with steps := 1 } else s
        if !s.allPerformed then t.modS c fun u => { u with wait := .stalled } else finishExit t c
    else scalar g (fun s => .ok s none 1 .other) s)

end Sys2Proof.Machine
end

