-- ==== Sys2Proof/Machine/PoolInstr.lean ====
section
/-! DEFINITION. The pool instructions (R144, R147, R152 to R155, R201, R202): what S does at their issue, and the
arrival of their results. What the pool units do stands in PoolUnit. -/
namespace Sys2Proof.Machine

/-- The partition that owns a pool (R380). -/
def poolPart (s : State) (p : Nat) : Nat := if s.sys.part = 1 then p / 32 else if s.sys.part = 2 then p / 16 else 0

/-- R201, R139: what is wrong with a control word: its bits first, then the pool's owner. -/
def poolTrap (s : State) (c : Nat) (w : W64) (masked : Bool) : Option Nat :=
  let keep : W64 := if masked then 0xFFFF003F else 0x3F
  if w &&& ~~~keep ≠ 0 then some 0x47
  else
    let p := w.toNat % 64
    if (s.pool p).owner = some (s.core c).ctx && poolPart s p = partOf s (dieOf c) then none else some 0x45

/-- The entry that two registers hold (R142, R201), before the pool unit adds its hidden fields. -/
def entryOf (key payload : W64) (r : Rel) : PEnt :=
  { key := key.setWidth 32, tie := (key >>> 32).setWidth 32, payload := payload, o := 0, n := 0, rel := r }
/-- The key register of an entry. -/
def entryKey (e : PEnt) : W64 := e.tie ++ e.key

/-- The shared part of the puts: releases the classes of the mask and sends the entry to the shard, which it reaches
ten cycles later (R153, R155). -/
def putIssue (s : State) (kind : Nat) (d a b : BitVec 5) (p : BitVec 3) : SRes :=
  let c := s.cur.1
  let w := s.x a
  match poolTrap s c w true with
  | some cause => .trap cause 0 none s
  | none =>
    let u := whoS s c
    let rel := relMasked u.id (w.extractLsb' 16 16) (raceGet s u)
    let e := entryOf (s.x d) (s.x b) rel
    let s := bumpMasked s c 0 (w.extractLsb' 16 16)
    .wait (.pool kind d.toNat b.toNat p.toNat)
      (s.send (s.now + 10) (fun id => .poolPutArrival id) (.put (w.toNat % 64) (dieOf c) c e (w.extractLsb' 16 16) none u.id))

/-- R144, R202: offers an entry; a refusal traps when it returns. -/
def execPput (g : BitVec 3) (d a b : BitVec 5) (s : State) : Host.Outcome State Fault Refusal :=
  .next (scalar g (fun s => putIssue s 0 d a b 0) s)
/-- R144, R202: offers an entry; the predicate says whether it was accepted. -/
def execPputTry (g : BitVec 3) (d a b : BitVec 5) (p : BitVec 3) (s : State) : Host.Outcome State Fault Refusal :=
  .next (scalar g (fun s => putIssue s 1 d a b p) s)

/-- R147, R202: sends a take to the strand's shard, which it reaches twelve cycles later (R155). DESIGN CHOICE (log entry 79): equal
destinations trap with 0x02 before a bad pool or control word does, for R173 lists neither first. -/
def execPtake (g : BitVec 3) (d a b : BitVec 5) (p : BitVec 3) (s : State) : Host.Outcome State Fault Refusal :=
  .next (scalar g (fun s =>
    let c := s.cur.1
    if d = b ∧ d ≠ 0 then .trap 0x02 0 none s
    else
      match poolTrap s c (s.x a) false with
      | some cause => .trap cause 0 none s
      | none =>
        let t : Take :=
          { id := s.nextId, core := c, unit := unitId c 0, home := dieOf c, issued := s.now, at_ := 0, promoted := false, kept := false, retry := 0
            empty := none, broken := false, bound := 0, limit := 0 }
        .wait (.pool 2 d.toNat b.toNat p.toNat)
          (s.send (s.now + 12) (fun id => .takeArrival id) (.take ((s.x a).toNat % 64) (dieOf c) t))) s)

/-- R152, R202: asks the strand's shard for its best entry, which it reaches six cycles later (R155). DESIGN CHOICE (log entry 79): equal
destinations trap with 0x02 before a bad pool or control word does. -/
def execPpeek (g : BitVec 3) (d a b : BitVec 5) (p : BitVec 3) (s : State) : Host.Outcome State Fault Refusal :=
  .next (scalar g (fun s =>
    let c := s.cur.1
    if d = b ∧ d ≠ 0 then .trap 0x02 0 none s
    else
      match poolTrap s c (s.x a) false with
      | some cause => .trap cause 0 none s
      | none =>
        .wait (.pool 3 d.toNat b.toNat p.toNat)
          (s.send (s.now + 6) (fun id => .takeArrival id) (.peek ((s.x a).toNat % 64) (dieOf c) c 0))) s)

/-- The register results of a pool instruction (R201, R202): destinations first and second, then the predicate. -/
def poolWrites (kind d b p : Nat) (ent : Option PEnt) (ok : Bool) : List (Nat × W64) :=
  let pr : List (Nat × W64) := [(32 + p, if ok then 1 else 0)]
  if kind = 0 then []
  else if kind = 1 then pr
  else
    match ent with
    | some e => [(d, entryKey e), (b, e.payload)] ++ pr
    | none => [(d, 0), (b, 0)] ++ pr

/-- Writes one scalar result: register 0 to 31, or 32 + predicate. -/
def SUnit.land (u : SUnit) (r : Nat) (v : W64) : SUnit := if r < 32 then u.setReg r v else u.setPred (r - 32) (v ≠ 0)

/-- A pool operation's result reaches S (R155): a refused `pput` traps, a take acquires at device scope (R153). -/
def poolResult (s : State) (c : Nat) (ent : Option PEnt) (ok : Bool) (trap : Nat) : State :=
  match (s.core c).su.wait with
  | .pool kind d b p =>
    let s := { s with cur := (c, 0) }
    if trap ≠ 0 then trapS (s.modS c fun u => { u with wait := .idle }) c trap 0 none
    else
      let s := match kind, ent with
        | 2, some e => acquireBy s c 0 3 e.rel
        | _, _ => s
      let s := s.modS c fun u => (poolWrites kind d b p ent ok).foldl (fun u w => u.land w.1 w.2) u
      (retire s c none 0 .other true).modS c fun u => { u with next := max (s.core c).su.next (s.core c).cy }
  | _ => s

/-- R155: the result of a pool operation returns. -/
def execPoolResultReturn (id : Nat) (s : State) : Host.Outcome State Fault Refusal :=
  match mapFind id s.flights with
  | some (.result core _ ent ok trap) => .next (poolResult { s with flights := mapDel id s.flights } core ent ok trap)
  | _ => .refused .notEnabled

end Sys2Proof.Machine
end

