-- ==== Sys2Proof/Machine/PoolUnit.lean ====
section
/-! DEFINITION. The pool units of the dies (R139 to R151, R154, R155, R380): accepting puts, counting inserts,
snapshots, deciding takes, forwarding, promotion, forced rounds and migration. -/
namespace Sys2Proof.Machine

/-- A shard of a pool, and a change to one. -/
def Pool.shard (p : Pool) (d : Nat) : Shard := mapGet Shard.reset d p.shards
def State.shard (s : State) (p d : Nat) : Shard := (s.pool p).shard d
def State.modShard (s : State) (p d : Nat) (f : Shard → Shard) : State :=
  s.modPool p fun x => { x with shards := mapMod Shard.reset d f x.shards }

/-- The dies that hold a shard of a pool (R139, R380). -/
def poolDies (s : State) (p : Nat) : List Nat := [0, 1, 2, 3].filter fun d => partOf s d = poolPart s p
def remotes (s : State) (p d : Nat) : List Nat := (poolDies s p).filter (· ≠ d)

/-- R143: the order of entries. -/
def better (x y : PEnt) : Bool :=
  if x.key ≠ y.key then x.key.ult y.key
  else if x.tie ≠ y.tie then x.tie.ult y.tie
  else if x.o ≠ y.o then x.o < y.o else x.n < y.n
/-- Inserts an entry in rank order. -/
def rankInsert (e : PEnt) : List PEnt → List PEnt
  | [] => [e]
  | x :: r => if better e x then e :: x :: r else x :: rankInsert e r

/-- An entry as 16 bytes of memory (R142). -/
def entryBytes (e : PEnt) : List Byte := natBytes e.key.toNat 4 ++ natBytes e.tie.toNat 4 ++ natBytes e.payload.toNat 8
/-- Entries the unit holds on chip (R139). -/
def onChip : Nat := 64
/-- A pool unit meets a fault in writing a heap: a record with UNIT 7, and the write waits for its acknowledgement (R357, R361). -/
def heapFault (s : State) (p d cause kind va info : Nat) : State :=
  postRecord (s.modShard p d fun sh => { sh with held := true }) d
    { seq := 0, core := 0xFFFF, unit := 7, cause := cause, ctx := (s.pool p).owner.getD 0xFFFF, kind := kind, addr := BitVec.ofNat 64 va, info := BitVec.ofNat 64 info
      cycle := BitVec.ofNat 32 s.now, owner := 4 * p + d, agent := 96, after := false }
/-- The pages of a shard's heap that its entries take. -/
def heapVas (sh : Shard) : List Nat := pageVas sh.area (16 * (sh.ents.length - onChip))
/-- Writes the heap of a shard: the present entries beyond the best 64, in rank order, on relaxed pages of the owner's context (R139,
R142, R153; log entry 51). The pool unit walks for a page that its table lacks, and writes once the walk has ended (R358). -/
def spillHeap (s : State) (p d : Nat) : State :=
  let sh := s.shard p d
  let u := 164 + d
  match (s.pool p).owner with
  | none => s
  | some ctx =>
    if sh.held || sh.ents.length ≤ onChip then s
    else
      match dieWalk s u ctx (d, 768 + p) true (heapVas sh), (heapVas sh).find? fun va => (dieAddr s u ctx va true).isNone with
      | some t, _ => t
      | none, some va => heapFault s p d (if spaceOf va = some .device then 0x15 else 0x10) 0 va 0
      | none, none =>
        (sh.ents.drop onChip).zipIdx.foldl (fun s e =>
          match dieAddr s u ctx (sh.area + 16 * e.2) true with
          | some pa => pokeBytes s ⟨0, 160, 0, systemUnit d 18, 0⟩ pa (entryBytes e.1) false
          | none => s) s
/-- Whether the first line of a shard's heap, which holds the entry that the unit takes back next, is poisoned. -/
def heapPoisoned (s : State) (p d : Nat) : Bool :=
  match (s.pool p).owner.bind fun ctx => dieAddr s (164 + d) ctx (s.shard p d).area false with
  | some pa => rangePoisoned s pa 16
  | none => false
/-- A read of the heap is refused (R367): the unit stops with a record until it is acknowledged. -/
def heapRefused (s : State) (p d : Nat) (e : PEnt) : State :=
  heapFault (s.modShard p d fun sh => { sh with refused := some e }) p d 0x53 0 (s.shard p d).area 0

/-- Changes the present entries of a shard. Where an entry leaves the unit, the heap's best one takes its place, which is a read of the heap. -/
def setEnts (s : State) (p d : Nat) (f : List PEnt → List PEnt) : State :=
  let old := (s.shard p d).ents
  let new := f old
  let t := spillHeap (s.modShard p d fun sh => { sh with ents := new }) p d
  match new[onChip - 1]? with
  | some e => if decide (new.length < old.length) && heapPoisoned s p d then heapRefused t p d e else t
  | none => t

/-- The count that shard i holds for shard j (R146). -/
def insertCount (sh : Shard) (j : Nat) : Nat := mapGet 0 j sh.counted - (mapGet ⟨[], 0⟩ j sh.snaps).effected
def snapOf (sh : Shard) (j : Nat) : List PEnt := (mapGet ⟨[], 0⟩ j sh.snaps).ents

/-- Asks for a decision at a shard in this pulse. -/
def askDecide (s : State) (p d : Nat) : State :=
  let t := Turn.event (.takeDecide p d)
  if s.agenda.contains t then s else { s with agenda := s.agenda ++ [t] }

/-- Changes the takes of a shard's two queues. -/
def mapTakes (f : Take → Take) (sh : Shard) : Shard := { sh with loc := sh.loc.map f, fwd := sh.fwd.map f }

/-- A take's emptiness round is over without an answer: the take is decided again (R150). -/
def Take.again (t : Take) : Take := if t.empty.isSome then { t with empty := none, kept := false, broken := false } else t

/-- An arrival buffer of the pool holds an entry: no emptiness round under way can end empty, and its takes are decided
again when its snapshots have come (R150). -/
def breakRounds (s : State) (p : Nat) : State :=
  let fail (t : Take) : Take := if t.empty.isSome then { t with broken := true } else t
  (poolDies s p).foldl (fun s d => s.modShard p d (mapTakes fail)) s

/-! ### Results -/

/-- Sends the result of a take that a shard has decided, by way of its first shard (R155). -/
def takeReturns (s : State) (from_ : Nat) (t : Take) (extra : Nat) (ent : Option PEnt) : State :=
  s.send (s.now + extra + legCy from_ t.home + 12) (fun id => .poolResultReturn id) (.result t.core t.id ent ent.isSome 0)

/-- Sends an empty result, which S has no earlier than 256 cycles and the longest leg after the issue (R155). -/
def emptyReturns (s : State) (p from_ : Nat) (t : Take) : State :=
  let far := ((remotes s p t.home).map (legCy t.home)).foldl max 0
  s.send (max (s.now + legCy from_ t.home + 12) (t.issued + 256 + far)) (fun id => .poolResultReturn id) (.result t.core t.id none false 0)

/-- Removes a take from a shard's queues. -/
def dropTake (id : Nat) (sh : Shard) : Shard :=
  { sh with loc := sh.loc.filter fun t => t.id ≠ id, fwd := sh.fwd.filter fun t => t.id ≠ id }

/-! ### Forced rounds (R149) -/

/-- The round ends: puts and takes go on at every shard, and promoted takes that waited are decided again. -/
def endRound (s : State) (p : Nat) : State :=
  let s := s.modPool p fun x => { x with round := none }
  (poolDies s p).foldl (fun s d =>
    askDecide (s.modShard p d fun sh => { mapTakes (fun t => if t.promoted then { t with kept := false } else t) sh with stopped := false }) p d) s

/-- Every snapshot of the round has arrived, and no entry enters or leaves a shard: the take is served with the pool's best entry, or
returns empty. -/
def roundReady (s : State) (p : Nat) (r : Round) : State :=
  let sh := s.shard p r.shard
  match (sh.loc ++ sh.fwd).find? fun t => t.id = r.take with
  | none => endRound s p
  | some t =>
    let heads := (poolDies s p).filterMap fun j => (s.shard p j).ents.head?.map fun x => (j, x)
    let best := heads.foldl (fun (b : Option (Nat × PEnt)) e => match b with
      | some x => if better e.2 x.2 then some e else b
      | none => some e) none
    match best with
    | none => endRound (emptyReturns (s.modShard p r.shard (dropTake t.id)) p r.shard t) p
    | some (j, _) =>
      let s := s.modPool p fun x => { x with round := some { r with fetching := true } }
      if j = r.shard then
        let id := s.nextId
        { s with nextId := id + 1, flights := mapSet id (.serve p j t r.shard) s.flights, agenda := s.agenda ++ [.event (.forcedRoundServe id)] }
      else s.send (s.now + legCy r.shard j) (fun id => .forcedRoundServe id) (.serve p j t r.shard)

/-- A stopped shard whose arrival buffer is empty sends its fresh snapshot, once. -/
def roundSend (s : State) (p d : Nat) : State :=
  match (s.pool p).round with
  | none => s
  | some r =>
    let sh := s.shard p d
    if sh.stopped && sh.arr.isEmpty && !r.sent.contains d then
      let sn : Snap := ⟨sh.ents.take 16, sh.effected⟩
      let s := (remotes s p d).foldl (fun s j => s.send (s.now + legCy d j) (fun id => .snapshotArrival id) (.snap p d j sn (some r.id))) s
      let r := { r with sent := r.sent ++ [d], await := if d = r.shard then r.await.filter (· ≠ d) else r.await }
      let s := s.modPool p fun x => { x with round := some r }
      if r.await.isEmpty && !r.fetching then roundReady s p r else s
    else s

/-- A promoted take's decision fails (R149): it starts a round, or waits for the one under way. -/
def promotedFails (s : State) (p d : Nat) (t : Take) : State :=
  let keep (x : Take) : Take := if x.id = t.id then { x with kept := true, retry := 0, empty := none } else x
  let s := s.modShard p d (mapTakes keep)
  match (s.pool p).round with
  | some _ => s
  | none =>
    let s := ({ s with nextId := s.nextId + 1 } : State).modPool p fun x => { x with round := some ⟨s.nextId, s.now, d, t.id, poolDies s p, [], false⟩ }
    (poolDies s p).foldl (fun s j =>
      if j = d then { s with agenda := s.agenda ++ [.event (.putStopArrival p j)] }
      else s.schedule (s.now + legCy d j) (.putStopArrival p j)) s

/-- The stop of puts reaches a shard, one leg after the round began (R149). -/
def execPutStopArrival (pool shard : Nat) (s : State) : Host.Outcome State Fault Refusal :=
  match (s.pool pool).round with
  | none => .refused .notEnabled
  | some r => if s.now < r.began + legCy r.shard shard then .refused .notEnabled else .next (roundSend (s.modShard pool shard fun sh => { sh with stopped := true }) pool shard)

/-- R149: the fetch reaches the shard that holds the pool's best entry and removes it: the take's moment of effect. DESIGN CHOICE (log entry 66): R151
counts it at the shard that held the entry. -/
def execForcedRoundServe (id : Nat) (s : State) : Host.Outcome State Fault Refusal :=
  match mapFind id s.flights with
  | some (.serve p d t frm) =>
    let s := { s with flights := mapDel id s.flights }
    let e := (s.shard p d).ents.head?
    let s := setEnts (s.modShard p d fun sh => { sh with served := (sh.served.headD 0 + 1) :: sh.served.drop 1 }) p d (·.drop 1)
    .next (endRound (takeReturns (s.modShard p frm (dropTake t.id)) frm t (legCy d frm) e) p)
  | _ => .refused .notEnabled

/-! ### Inserting (R144, R146) -/

/-- An insert is accepted at a shard: it waits in the arrival buffer and is announced to the other shards. -/
def acceptInsert (s : State) (p d : Nat) (e : PEnt) (from_ : Option Nat) : State :=
  let id := s.nextId
  let s := { s with nextId := id + 1 }
  let s := s.modShard p d fun sh => { sh with arr := sh.arr ++ [⟨e, id, from_⟩], accepted := sh.accepted + 1 }
  let rs := remotes s p d
  let far := (rs.map (legCy d)).foldl max 0
  let s := match rs with
    | [] => s.send (s.now + 10) (fun i => .insertCounted i) (.count p d d id true)
    | _ => rs.foldl (fun s j => s.send (s.now + legCy d j + 10) (fun i => .insertCounted i) (.count p d j id (legCy d j = far))) s
  breakRounds s p

/-- Whether a shard accepts (R144). -/
def hasRoom (s : State) (p d : Nat) : Bool := (s.shard p d).ents.length + (s.shard p d).arr.length < (s.pool p).cap

/-- R144: a put, or an entry offered by another shard (R151), reaches its shard. While a forced round has stopped the
shard it waits there (R149). -/
def execPoolPutArrival (id : Nat) (s : State) : Host.Outcome State Fault Refusal :=
  match mapFind id s.flights with
  | some (.put p d core ent _ _ _) =>
    .next (
      if (s.shard p d).stopped then s.schedule (s.now + 1) (.poolPutArrival id)
      else
        let s := { s with flights := mapDel id s.flights }
        let ok := hasRoom s p d
        let s := if ok then acceptInsert s p d { ent with o := d, n := (s.shard p d).accepted % 2 ^ 62 } none else s
        let plain : Bool := match (s.core core).su.wait with
          | .pool 0 _ _ _ => true
          | _ => false
        s.send (s.now + 10) (fun i => .poolResultReturn i) (.result core id none ok (if !ok && plain then 0x44 else 0)))
  | some (.offer p frm d ent) =>
    .next (
      if (s.shard p d).stopped then s.schedule (s.now + 1) (.poolPutArrival id)
      else
        let s := { s with flights := mapDel id s.flights }
        if hasRoom s p d then acceptInsert s p d ent (some frm) else s)
  | _ => .refused .notEnabled

/-- An entry becomes present in a shard: takes there that wait for emptiness are decided again (R150). -/
def becomePresent (s : State) (p d : Nat) (e : PEnt) : State :=
  askDecide (setEnts (s.modShard p d (mapTakes Take.again)) p d (rankInsert e)) p d

/-- An insert leaves the arrival buffer: it has taken effect (R144). -/
def takeEffect (s : State) (p d ins : Nat) : State :=
  s.modShard p d fun sh => { sh with arr := sh.arr.filter (fun x => x.id ≠ ins), effected := sh.effected + 1 }

/-- R146: a remote shard counts an insert; when the last one does, the insert takes effect (R144), or a migrating entry
asks for its transfer (R151). -/
def execInsertCounted (id : Nat) (s : State) : Host.Outcome State Fault Refusal :=
  match mapFind id s.flights with
  | some (.count p frm dest ins last) =>
    let s := { s with flights := mapDel id s.flights }
    let s := if frm = dest then s else s.modShard p dest fun sh => { sh with counted := mapMod 0 frm (· + 1) sh.counted }
    .next (
      if last then
        match (s.shard p frm).arr.find? fun a => a.id = ins with
        | none => s
        | some a =>
          match a.from_ with
          | none => roundSend (becomePresent (takeEffect s p frm ins) p frm a.ent) p frm
          | some j =>
            let i := s.nextId
            { s with nextId := i + 1, flights := mapSet i (.migrate p j frm a.ent ins) s.flights, agenda := s.agenda ++ [.event (.migrationTransfer i)] }
      else s)
  | _ => .refused .notEnabled

/-- R151: the old shard releases the entry if it still holds it, and it becomes present in the new one in the same
cycle; else the copy is discarded. Either way the insert has taken effect, and a stopped shard then sends its snapshot. -/
def execMigrationTransfer (id : Nat) (s : State) : Host.Outcome State Fault Refusal :=
  match mapFind id s.flights with
  | some (.migrate p frm dest ent ins) =>
    let s := takeEffect { s with flights := mapDel id s.flights } p dest ins
    let same (e : PEnt) : Bool := e.o = ent.o && e.n = ent.n
    .next (roundSend (
      if (s.shard p frm).ents.any same then becomePresent (setEnts s p frm (·.filter fun e => !same e)) p dest ent else s) p dest)
  | _ => .refused .notEnabled

/-! ### Snapshots (R145) and rebalancing (R151) -/

/-- Takes a shard served over the last four snapshot periods. -/
def servedCount (sh : Shard) : Nat := (sh.served.take 4).sum

/-- What shard d offers at a snapshot: the shard with the highest count and the entries (R151). DESIGN CHOICE (log entry 66): the counts of all shards
are compared as they stand in that pulse, and a snapshot of shard k that lists no entry, which has no worst one, is offered nothing. -/
def offers (s : State) (p d : Nat) : Option (Nat × List PEnt) :=
  let ds := poolDies s p
  let top := (ds.map fun j => servedCount (s.shard p j)).foldl max 0
  let best := ds.filter fun j => servedCount (s.shard p j) = top
  let k := best.getD (Config.tieBreak s.now % best.length) d
  if (s.pool p).norebal ∨ k = d ∨ top ≤ 2 * servedCount (s.shard p d) then none
  else
    match (snapOf (s.shard p d) k).getLast? with
    | none => none
    | some w => some (k, ((s.shard p d).ents.filter fun e => better e w).take 4)

/-- R145: every shard of the pool takes and publishes its periodic snapshot; the next follows 256 cycles later. -/
def execPoolSnapshot (pool : Nat) (s : State) : Host.Outcome State Fault Refusal :=
  if (s.pool pool).owner.isNone then .refused .notEnabled
  else
    let ds := poolDies s pool
    let sends := ds.flatMap fun d => (remotes s pool d).map fun j => (d, j, (⟨(s.shard pool d).ents.take 16, (s.shard pool d).effected⟩ : Snap))
    let offs := ds.filterMap fun d => (offers s pool d).map fun o => (d, o)
    let s1 := sends.foldl (fun s e => s.send (s.now + legCy e.1 e.2.1) (fun id => .snapshotArrival id) (.snap pool e.1 e.2.1 e.2.2 none)) s
    let s2 := offs.foldl (fun s o => o.2.2.foldl (fun s e => s.send (s.now + legCy o.1 o.2.1) (fun id => .poolPutArrival id) (.offer pool o.1 o.2.1 e)) s) s1
    let s3 := ds.foldl (fun s d => s.modShard pool d fun sh => { sh with served := (0 :: sh.served).take 5 }) s2
    .next (s3.schedule (s3.now + 256) (.poolSnapshot pool))

/-- A snapshot reaches shard d: what it means for a take there that waits (R147, R150): a kept one can be decided again in this pulse.
The Bool says that the take returns empty. -/
def snapTake (s : State) (p d frm : Nat) (sn : Snap) (t : Take) : Take × Bool :=
  match t.empty with
  | none => ({ t with retry := if t.promoted && (s.pool p).round.isSome then t.retry else s.now + 1 }, false)
  | some l =>
    let sh := s.shard p d
    let failed := t.broken || !sn.ents.isEmpty || (remotes s p d).any (fun j => insertCount sh j ≠ 0)
    let l := if l.contains frm then l else l ++ [frm]
    let complete := (remotes s p d).all l.contains
    (if complete then t.again else { t with empty := some l, broken := failed }, complete && !failed)

/-- R145: a remote snapshot replaces the previous one; kept takes are decided again, and takes that wait for emptiness
return empty once every remote shard has sent one more (R150). -/
def execSnapshotArrival (id : Nat) (s : State) : Host.Outcome State Fault Refusal :=
  match mapFind id s.flights with
  | some (.snap p frm d sn round) =>
    let s := { s with flights := mapDel id s.flights }
    let s := s.modShard p d fun sh => { sh with snaps := mapSet frm sn sh.snaps }
    let ts := (s.shard p d).loc ++ (s.shard p d).fwd
    let done := ts.filter fun t => (snapTake s p d frm sn t).2
    let s' := s.modShard p d (mapTakes fun t => (snapTake s p d frm sn t).1)
    let s' := done.foldl (fun s t => emptyReturns (s.modShard p d (dropTake t.id)) p d t) s'
    let s' := askDecide s' p d
    .next (
      match (s'.pool p).round with
      | some r =>
        if round = some r.id && r.shard = d then
          let r := { r with await := r.await.filter (· ≠ frm) }
          let s' := s'.modPool p fun x => { x with round := some r }
          if r.await.isEmpty && !r.fetching then roundReady s' p r else s'
        else s'
      | none => s')
  | _ => .refused .notEnabled

/-! ### Taking (R147 to R150) -/

/-- Puts a take into a queue: by arrival, and in one cycle by the unit that issued it (R149). -/
def queueTake (t : Take) : List Take → List Take
  | [] => [t]
  | x :: r => if x.at_ = t.at_ && t.unit < x.unit then t :: x :: r else x :: queueTake t r

/-- A take reaches its own shard, or a peek reads it (R152, R155). -/
def execTakeArrival (id : Nat) (s : State) : Host.Outcome State Fault Refusal :=
  match mapFind id s.flights with
  | some (.take p d t) =>
    let s := { s with flights := mapDel id s.flights }
    let t := { t with at_ := s.now, bound := (s.pool p).bound, limit := (s.pool p).starve }
    .next (askDecide (s.modShard p d fun sh => { sh with loc := queueTake t sh.loc }) p d)
  | some (.peek p d core _) =>
    let s := { s with flights := mapDel id s.flights }
    let e := (s.shard p d).ents.head?
    .next (s.send (s.now + 6) (fun i => .poolResultReturn i) (.result core id e e.isSome 0))
  | _ => .refused .notEnabled

/-- A forwarded take reaches its target's forwarding queue (R149). -/
def execTakeForwardArrival (id : Nat) (s : State) : Host.Outcome State Fault Refusal :=
  match mapFind id s.flights with
  | some (.take p d t) =>
    let s := { s with flights := mapDel id s.flights }
    let t := { t with at_ := s.now, kept := false, bound := (s.pool p).bound, limit := (s.pool p).starve }
    let s := s.modShard p d fun sh => { sh with fwd := queueTake t sh.fwd }
    .next ((askDecide s p d).schedule (s.now + t.limit + 1) (.takePromotion p d))
  | _ => .refused .notEnabled

/-- R149: forwarded takes that have waited longer than LIMIT are promoted, and decided again. -/
def execTakePromotion (pool shard : Nat) (s : State) : Host.Outcome State Fault Refusal :=
  let due (t : Take) : Bool := !t.promoted && t.limit < s.now - t.at_
  if (s.shard pool shard).fwd.any due then
    .next (askDecide (s.modShard pool shard fun sh =>
      { sh with fwd := sh.fwd.map fun t => if due t then { t with promoted := true, retry := s.now + 1 } else t }) pool shard)
  else .refused .notEnabled

/-- R149: the take to decide next in a pulse; a kept one, outside the pulses that R147 names, and one that waits for emptiness are
passed over. -/
def nextTake (now : Nat) (sh : Shard) : Option Take :=
  let ready (t : Take) : Bool := (!t.kept || t.retry = now + 1) && t.empty.isNone
  ((sh.fwd.find? fun t => t.promoted && ready t).or (sh.loc.find? ready)).or (sh.fwd.find? fun t => !t.promoted && ready t)

/-- target(i) of R147 and R150. -/
def targetOf (s : State) (p i : Nat) : Option Nat :=
  let sh := s.shard p i
  let heads := (remotes s p i).filterMap fun j => (snapOf sh j).head?.map fun e => (j, e)
  match heads with
  | h :: r => some (r.foldl (fun b e => if better e.2 b.2 then e else b) h).1
  | [] =>
    match remotes s p i with
    | [] => none
    | j :: r => some (r.foldl (fun b k => if insertCount sh b < insertCount sh k then k else b) j)

/-- The count n of R147 for the best entry x of shard i. -/
def countBetter (s : State) (p i bound : Nat) (x : PEnt) : Nat :=
  let sh := s.shard p i
  ((remotes s p i).map fun j =>
    let l := snapOf sh j
    let b := (l.filter fun e => better e x).length
    (if l.length = 16 && b = 16 then bound else b) + insertCount sh j).sum

/-- A decision that does not serve: forward, keep, or a failed decision of a promoted take. -/
def notServed (s : State) (p d : Nat) (t : Take) : State :=
  if t.promoted then promotedFails s p d t
  else if t.home = d && !(s.shard p d).fwd.any (fun x => x.id = t.id) then
    match targetOf s p d with
    | none => s.modShard p d (mapTakes fun x => if x.id = t.id then { x with kept := true, retry := 0 } else x)
    | some j => (s.modShard p d (dropTake t.id)).send (s.now + legCy d j) (fun id => .takeForwardArrival id) (.take p j t)
  else s.modShard p d (mapTakes fun x => if x.id = t.id then { x with kept := true, retry := 0 } else x)

/-- R147, R150: decides one take at a shard. -/
def decideTake (s : State) (p d : Nat) (t : Take) : State :=
  let sh := s.shard p d
  match sh.ents with
  | x :: r =>
    if countBetter s p d t.bound x < t.bound then
      let s := setEnts (s.modShard p d fun sh => { dropTake t.id sh with served := (sh.served.headD 0 + 1) :: sh.served.drop 1 }) p d (fun _ => r)
      takeReturns s d t 0 (some x)
    else notServed s p d t
  | [] =>
    let rs := remotes s p d
    if rs.any fun j => !(snapOf sh j).isEmpty || insertCount sh j ≠ 0 then notServed s p d t
    else
      let full := (poolDies s p).any fun j => !(s.shard p j).arr.isEmpty
      if rs.isEmpty && !full then emptyReturns (s.modShard p d (dropTake t.id)) p d t
      else s.modShard p d (mapTakes fun x => if x.id = t.id then { x with kept := true, empty := some [], broken := full } else x)

/-- R147, R149: a shard decides at most one take per cycle; a shard that has sent its snapshot of a forced round
decides none until the round ends. -/
def execTakeDecide (pool shard : Nat) (s : State) : Host.Outcome State Fault Refusal :=
  let sh := s.shard pool shard
  let held : Bool := match (s.pool pool).round with
    | some r => r.sent.contains shard
    | none => false
  if held || sh.refused.isSome || sh.decided = s.now + 1 then .refused .notEnabled
  else
    match nextTake s.now sh with
    | none => .refused .notEnabled
    | some t => .next (decideTake (s.modShard pool shard fun sh => { sh with decided := s.now + 1 }) pool shard t)

/-! ### Withdrawal (R154) and release of a pool -/

/-- Whether something on its way belongs to a pool instruction of a core. -/
def Flight.poolOf (c : Nat) : Flight → Bool
  | .put _ _ core _ _ _ _ => core = c
  | .take _ _ t => t.core = c
  | .serve _ _ t _ => t.core = c
  | .result core _ _ _ _ => core = c
  | .peek _ _ core _ => core = c
  | _ => false

/-- Withdraws what a core has asked of the pools and has not been given (R154). -/
def withdrawPool (s : State) (c : Nat) : State :=
  let s := { s with flights := s.flights.filter fun f => !f.2.poolOf c }
  s.pools.foldl (fun s (p, x) =>
    let mine := x.shards.flatMap fun e => (e.2.loc ++ e.2.fwd).filterMap fun t => if t.core = c then some t.id else none
    let s := mine.foldl (fun s i => (poolDies s p).foldl (fun s d => s.modShard p d (dropTake i)) s) s
    match x.round with
    | some r => if mine.contains r.take then endRound s p else s
    | none => s) s

/-- A freeze while S waits for a pool (R154): a result on its way becomes pending writes and the instruction has been
done, else the instruction is withdrawn and issues again. DESIGN CHOICE (log entry 78): the result of an empty take, of a peek and of a refused `pput.try`
is such a result, though R154 gives these no moment of effect. -/
def freezePool (s : State) (c : Nat) : State :=
  match (s.core c).su.wait with
  | .pool kind d b p =>
    let res := s.flights.findSome? fun f => match f.2 with
      | .result core _ ent ok trap => if core = c && trap = 0 then some (ent, ok) else none
      | _ => none
    match res with
    | some (ent, ok) =>
      let s := { s with flights := s.flights.filter fun f => !f.2.poolOf c }
      let s := match kind, ent with
        | 2, some e => acquireBy s c 0 3 e.rel
        | _, _ => s
      s.modS c fun u =>
        { u with wait := .idle, pc := u.pc + 4, pend := u.pend ++ (poolWrites kind d b p ent ok).map fun w => ⟨w.1, w.2, 0⟩ }
    | none => (withdrawPool s c).modS c fun u => { u with wait := .stalled }
  | _ => s

end Sys2Proof.Machine
end

