-- ==== Sys2Proof/Machine/Flags.lean ====
section
/-! DEFINITION. The flags of the Igura: it keeps no IEEE exception flags and no arithmetic flags (R56, R176); its
flags are the four sticky flags of a coder lane and the traps that CTX.RCTRAP selects (R236, R247, R248). -/
namespace Sys2Proof.Machine

/-- ENDED, UNDERRUN, OVERRUN and PCLAMP of a coder lane's flags (R236). -/
def fEnded (f : BitVec 4) : Bool := f.getLsbD 0
def fUnder (f : BitVec 4) : Bool := f.getLsbD 1
def fOver (f : BitVec 4) : Bool := f.getLsbD 2
def fPclamp (f : BitVec 4) : Bool := f.getLsbD 3

/-- A lane is live (R237). -/
def laneLive (l : CoderLane) : Bool := l.mode ≠ 0 && (l.flags &&& 0b0111#4) = 0#4

/-- The lanes of a list of lane numbers as a mask. -/
def lanesMask (l : List Nat) : W64 := l.foldl (fun m i => m ||| (1#64 <<< i)) 0

/-- The flag traps of one landing (R247): cause and lanes, by increasing cause. `ended` are the lanes of a decision
whose ENDED was already set, `under`, `over` those whose flag rose, `clamp` those that clamped. -/
def flagTraps (rctrap : BitVec 4) (ended under tooBig clamp : W64) : List (Nat × W64) :=
  let one (bit cause : Nat) (m : W64) : List (Nat × W64) := if rctrap.getLsbD bit && m ≠ 0 then [(cause, m)] else []
  one 0 0x32 ended ++ one 1 0x3A under ++ one 2 0x3B tooBig ++ one 3 0x3C clamp

/-- What a flag trap reports: the lowest cause, and every lane that took any (R248, R362). -/
def flagReport (l : List (Nat × W64)) : Option (Nat × W64) :=
  match l with
  | [] => none
  | (c, _) :: _ => some (c, l.foldl (fun m e => m ||| e.2) 0)

end Sys2Proof.Machine
end

