-- ==== Sys2Proof/Machine/VUnitOps.lean ====
section
/-! DEFINITION. The shared operations of V (R209 to R214, R225, R230 to R233): operands, masks, rotation of names,
issue, landing, completion and the position in a running loop. -/
namespace Sys2Proof.Machine

/-! ### Lanes -/

def laneAt (l : Lanes) (i : Nat) : W32 := l.getD i 0
def lanes64 : List Nat := List.range 64
def mkLanes (f : Nat → W32) : Lanes := lanes64.map f
/-- A 64-bit mask from a test on lane numbers. -/
def mkMask (f : Nat → Bool) : W64 := lanesMask (lanes64.filter f)
/-- New lanes where a mask is set, old lanes elsewhere. -/
def mergeLanes (en : W64) (new old : Lanes) : Lanes := mkLanes fun i => if en.getLsbD i then laneAt new i else laneAt old i

/-! ### The loop registers (R233) -/

def VUnit.active (v : VUnit) : Bool := v.loop.getLsbD 31
def VUnit.stages (v : VUnit) : Nat := v.loop.toNat / 2 ^ 10 % 8 + 1
def VUnit.body (v : VUnit) : Nat := v.loop.toNat / 2 ^ 3 % 128
def VUnit.trip (v : VUnit) : Nat := v.iter.toNat / 2 ^ 32
def VUnit.pos (v : VUnit) : Nat := v.iter.toNat / 2 ^ 26 % 64
/-- V.LOOP and V.ITER from their fields. -/
def loopWord (stages body : Nat) : W32 := BitVec.ofNat 32 (2 ^ 31 + (stages - 1) * 2 ^ 10 + body * 2 ^ 3)
def iterWord (trip pos : Nat) : W64 := BitVec.ofNat 64 (trip * 2 ^ 32 + pos * 2 ^ 26)

/-! ### Operands (R209, R211, R231) -/

/-- The physical register of a vector name (R231). -/
def VUnit.phys (v : VUnit) (n : Nat) : Nat := if v.active && 32 ≤ n then 32 + (n - 32 + 32 - v.iterJ.toNat % 32) % 32 else n
def VUnit.mask (v : VUnit) (n : Nat) : W64 := if n = 0 then BitVec.allOnes 64 else mapGet 0 n v.m

/-- A source operand: 64 lanes. -/
def Core.vsrc (k : Core) (n : Nat) : Lanes :=
  if n ≤ 63 then mkLanes (laneAt (mapGet [] (k.v.phys n) k.v.v))
  else if isDq n then
    match mapGet [] (n - 64) k.q.dq with
    | x :: _ => mkLanes (laneAt x.lanes)
    | [] => mkLanes fun _ => 0
  else if 80 ≤ n ∧ n ≤ 95 then mkLanes fun _ => mapGet 0 (n - 80) k.v.k
  else if 96 ≤ n ∧ n ≤ 111 then mkLanes (laneAt (mapGet [] (n - 96) k.v.q))
  else mkLanes fun _ => 0

/-- The clamp of R209 and R240 on a lane read as int32, and whether it changed the lane. -/
def clampQ (x : W32) : W32 × Bool :=
  if x.toInt < 1 then (1, true) else if 32767 < x.toInt then (32767, true) else (x, false)

/-- The lanes of a q register that read zero: a coder command reads 1 there and sets PCLAMP (R240). -/
def Core.qzero (k : Core) (n : Nat) : W64 := if 96 ≤ n ∧ n ≤ 111 then mkMask fun i => laneAt (k.vsrc n) i = 0 else 0
/-- A source operand as a coder command reads it (R240). -/
def Core.csrc (k : Core) (n : Nat) : Lanes := mkLanes fun i => if (k.qzero n).getLsbD i then 1 else laneAt (k.vsrc n) i

/-- What a destination operand receives (R209, R211). -/
def Core.vdest (k : Core) (n : Nat) (en : W64) (l : Lanes) : Target :=
  if n ≤ 63 then .vreg (k.v.phys n) l en
  else if isSq n then .slot (n - 72) k.v.slotId (.plain (mergeLanes en l []) en)
  else .qreg (n - 96) l en

/-- The data queues an entry names as sources, each once (R22). -/
def VForm.queues (f : VForm) (w : VWord) : List Nat :=
  (([(f.va, w.va), (f.vb, w.vb), (f.vc, w.vc)] : List (VF × BitVec 7)).filterMap fun e =>
    if e.1 = .src && isDq e.2.toNat then some (e.2.toNat - 64) else none).eraseDups

/-! ### Landing (R214, R225, R329) -/

/-- Flags rise on lanes (R247). -/
def setFlags (s : State) (c : Nat) (bits : BitVec 4) (lanes : W64) : State :=
  s.modV c fun v =>
    { v with coder := (lanes64.filter fun i => lanes.getLsbD i).foldl (fun m i =>
        mapMod CoderLane.reset i (fun l => { l with flags := l.flags ||| bits }) m) v.coder }

/-- The lanes of a q register's new value, and those that the clamp changed. -/
def clampLanes (en : W64) (l : Lanes) : Lanes × W64 :=
  (mkLanes fun i => (clampQ (laneAt l i)).1, mkMask fun i => en.getLsbD i && (clampQ (laneAt l i)).2)

/-- What the targets of one landing did that flag traps ask for (R247). -/
structure Raised where
  ended : W64
  under : W64
  tooBig : W64
  clamp : W64
  deriving DecidableEq, Repr
def Raised.none : Raised := ⟨0, 0, 0, 0⟩

/-- One write of the coder, as a write of W in class oc0 (R238): a byte of data, or a header of 16 bytes in one atomic write (R92,
R252). -/
def coderWrite (s : State) (c : Nat) (e : Nat × List Byte) : Got Unit :=
  let w := whoCore s c 3
  let va := 0x000FFFFFFFF80000 + e.1
  if e.2.length = 1 then (writeEng s w va 1 (bytesNat e.2) 0).bind fun _ s => .ok () s else writeAtomic s w va e.2.length (bytesNat e.2)

/-- The writes of a coder entry in their order: the state after them, those from one that trapped on, and the trap. -/
def coderWrites (s : State) (c : Nat) : List (Nat × List Byte) → State × List (Nat × List Byte) × Option (Nat × Option Nat)
  | [] => (s, [], none)
  | e :: r =>
    match coderWrite s c e with
    | .ok _ t => coderWrites t c r
    | .trap cause info t => (t, e :: r, some (cause, info))
    | .stall _ => coderWrites s c r
    | .miss _ _ _ => coderWrites s c r

/-- What V writes as W it releases with its own effects (R106, R238): V's table names W. -/
def noteCoder (s : State) (c : Nat) : State :=
  let w := whoCore s c 3
  let r : Rel := { unit := w.id, ivl := (raceGet s w).ivl, tab := [] }
  s.modCore c fun k => { k with race := mapMod RaceUnit.reset 4 (gather 0 r) k.race }

/-- The writes of a landing's targets: the state, the targets with what is left to write, and the trap of a write. -/
def landWrites (s : State) (c : Nat) : List Target → State × List Target × Option (Nat × Option Nat)
  | [] => (s, [], none)
  | .coder ls ws init :: l =>
    let x := coderWrites s c ws
    (if ws.isEmpty then x.1 else noteCoder x.1 c, .coder ls x.2.1 init :: l, x.2.2)
  | t :: l =>
    let x := landWrites s c l
    (x.1, t :: x.2.1, x.2.2)

/-- The new states of a lane-state command land (R250): PCLAMP keeps what has been set since the issue, except that
`rcinit` clears it (R248). -/
def landCoder (s : State) (c : Nat) (ls : SMap CoderLane) (init : Bool) : State × Raised :=
  let v := (s.core c).v
  let old (i : Nat) : CoderLane := mapGet CoderLane.reset i v.coder
  let rose (f : BitVec 4 → Bool) : W64 := lanesMask ((ls.filter fun e => f e.2.flags && !f (old e.1).flags).map (·.1))
  let new := ls.foldl (fun m e =>
    mapSet e.1 (if init then e.2 else { e.2 with flags := e.2.flags ||| ((old e.1).flags &&& 8#4) }) m) v.coder
  (s.modV c fun v => { v with coder := new }, { ended := 0, under := rose fUnder, tooBig := rose fOver, clamp := 0 })

/-- One target of a landing. An inbox push that finds the inbox full is held (R23); it carries its value and nothing else (R227). DESIGN CHOICE (log
entry 72): so does the push of a reduction, for V makes no access of its own (R99). -/
def landTarget (s : State) (c due : Nat) (t : Target) : State × Raised :=
  match t with
  | .vreg r l en => (s.modV c fun v => { v with v := mapSet r (mergeLanes en l (mapGet [] r v.v)) v.v }, Raised.none)
  | .slot q id d =>
    (progress (s.modQ c fun x => { x with sq := mapMod [] q (fun l => l.map fun e => if e.id = id then { e with data := some d } else e) x.sq }) c, Raised.none)
  | .mask n m => (s.modV c fun v => { v with m := mapPut 0 n m v.m }, Raised.none)
  | .qreg r l en =>
    let (l, cl) := clampLanes en l
    let s := s.modV c fun v => { v with q := mapSet r (mergeLanes en l (mapGet [] r v.q)) v.q }
    let s := if cl = 0 then s else s.modV c fun v =>
      { v with landings := landInsert { due := due, targets := [.flags 8 cl], signal := 0, rel := Rel.none, isEntry := false, word := 0, addr := 0 } v.landings }
    (s, { Raised.none with clamp := cl })
  | .res x => (s.modV c fun v => { v with res := x }, Raised.none)
  | .inbox x => (s.modV c fun v => { v with push := v.push ++ [(some ⟨x, 4, 0⟩, 0)] }, Raised.none)
  | .kreg n x => (s.modV c fun v => { v with k := mapPut 0 n x v.k }, Raised.none)
  | .coder ls _ init => landCoder s c ls init
  | .flags b l => (setFlags s c b l, { Raised.none with clamp := if b = 8 then l else 0 })
  | .ended l => (s, { Raised.none with ended := l })

/-- Completes a V entry (R214), and the `vloop` it is the last instance of (R232). With a push of its own to the inbox still held, its
signals wait behind that push (R225, R227). -/
def completeV (s : State) (c : Nat) (own : Bool) (signal : BitVec 8) (loop : Option (BitVec 8)) : State :=
  let l := signal :: loop.toList
  if own && !(s.core c).v.push.isEmpty then s.modV c fun v => { v with push := v.push ++ l.map fun m => (none, m) }
  else l.foldl (fun s m => completeEntry s c 4 m) s

/-- Tries the held inbox pushes in order (R23). -/
def pushInbox (s : State) (c : Nat) : Nat → State
  | 0 => s
  | n + 1 =>
    match (s.core c).v.push with
    | [] => s
    | (some e, _) :: r =>
      if (s.core c).q.inbox.length < 16 then
        let cy := (s.core c).cy
        let s := (s.modV c fun v => { v with push := r }).modQ c fun q => { q with inbox := q.inbox ++ [{ e with ready := cy + 2 }] }
        pushInbox (progress s c) c n
      else s
    | (none, sig) :: r => pushInbox (completeEntry (s.modV c fun v => { v with push := r }) c 4 sig) c n

/-- V stops with a record of the entry of a landing. -/
def stopLanding (s : State) (c cause : Nat) (x : Landing) (info : W64) (after : Bool) : State :=
  (postRecord s (dieOf c) (coreRecord s c 4 cause 0 (BitVec.ofNat 64 x.addr) info 4 after)).modEng c 4 fun g => { g with stop := .reporting }

/-- Whether an entry pushes to the inbox. -/
def Landing.toInbox (x : Landing) : Bool := x.targets.any fun t => match t with
  | .inbox _ => true
  | _ => false

/-- A landing: all results of one entry in one cycle, then its completion and its flag traps (R214, R248). A write of the coder that
traps comes first: the landing then waits with what it has still to write (R370). -/
def landOne (s : State) (c : Nat) (x : Landing) : State :=
  match landWrites s c x.targets with
  | (s, rest, some (cause, info)) =>
    stopLanding (s.modV c fun v => { v with landings := landInsert { x with targets := rest, held := true } v.landings }) c cause x (info.elim x.word (BitVec.ofNat 64)) false
  | (s, _, none) =>
    let (s, r) := x.targets.foldl (fun (acc : State × Raised) t =>
      let (s, a) := landTarget acc.1 c x.due t
      (s, ⟨acc.2.ended ||| a.ended, acc.2.under ||| a.under, acc.2.tooBig ||| a.tooBig, acc.2.clamp ||| a.clamp⟩)) (s, Raised.none)
    let s := if x.isEntry then completeV s c x.toInbox x.signal x.loop else s
    let s := if x.toInbox then pushInbox s c 64 else s
    match (if x.isEntry then flagReport (flagTraps (s.ctxOf c).rctrap r.ended r.under r.tooBig r.clamp) else none) with
    | some (cause, lanes) => stopLanding s c cause x lanes true
    | none => s

/-- The watermark that holds up a byte a landing writes (R90), if any. -/
def landingStall (s : State) (c : Nat) (x : Landing) : Option StallMark :=
  x.targets.findSome? fun t => match t with
    | .coder _ ws _ => ws.findSome? fun e => stallMark s (whoCore s c 3) (coreBase c + e.1) e.2.length
    | _ => none

/-- Whether a landing takes place in the current cycle. -/
def Core.lands (k : Core) (x : Landing) : Bool := !x.held && decide (x.due ≤ k.cy)

/-- Puts a landing that a watermark holds up before the younger ones of its new cycle, behind older ones that wait too (R214). -/
def landWaits (x : Landing) : List Landing → List Landing
  | [] => [x]
  | y :: r => if x.due < y.due || (x.due = y.due && !y.waited) then x :: y :: r else y :: landWaits x r

/-- R24, R214: the next due result of V lands; a byte that a watermark holds up makes it wait (R90), and it alone. -/
def execResultLanding (core : Nat) (s : State) : Host.Outcome State Fault Refusal :=
  match (s.core core).v.landings.find? (s.core core).lands with
  | none => .refused .notEnabled
  | some x =>
    let t := s.modV core fun v => { v with landings := v.landings.erase x }
    let t := match landingStall s core x with
      | some m => (noteStall t (some m)).modV core fun v => { v with landings := landWaits { x with due := (s.core core).cy + 1, waited := true } v.landings }
      | none => landOne t core x
    .next (if (t.core core).v.landings.any (t.core core).lands then { t with agenda := .event (.resultLanding core) :: t.agenda } else t)

/-- R23: a held inbox push succeeds once a slot is free. -/
def execInboxPush (core : Nat) (s : State) : Host.Outcome State Fault Refusal :=
  if !(s.core core).v.push.isEmpty && (s.core core).q.inbox.length < 16 then .next (pushInbox s core 64) else .refused .notEnabled

/-- R18: a held token push succeeds once the target queue has room. -/
def execTokenPush (core frm dest : Nat) (s : State) : Host.Outcome State Fault Refusal :=
  match ((s.core core).engine frm).held.find? fun h => h.dest = dest with
  | none => .refused .notEnabled
  | some h =>
    match pushTok s core frm dest h.rel with
    | none => .refused .notEnabled
    | some s => .next (s.modEng core frm fun g => { g with held := g.held.erase h })

/-! ### The position in a loop (R231, R232) -/

/-- Word i behind V's head, and the stage it carries. -/
def bodyStage (s : State) (c p : Nat) : Nat := (ringWord s c 4 (1 + p)).toNat / 2 ^ 6 % 8

/-- The first executing instance at or after (j, p). -/
def nextInstance (s : State) (c n b j p : Nat) (stages : Nat) : Option (Nat × Nat) :=
  let cands := (List.range (stages + 2)).flatMap fun dj => (List.range b).filterMap fun q => if dj = 0 && q < p then none else some (j + dj, q)
  cands.find? fun e => e.1 < n + stages - 1 && bodyStage s c e.2 ≤ e.1 && e.1 - bodyStage s c e.2 < n

/-- The signals of the running loop, when the instance at V's head is its last one. -/
def loopEnds (s : State) (c : Nat) : Option (BitVec 8) :=
  let v := (s.core c).v
  if v.active && (nextInstance s c v.trip v.body v.iterJ.toNat (v.pos + 1) v.stages).isNone then some v.loopSignal else none

/-- V's head moves past an entry that has issued: to the next entry, or to the next instance of a running loop, which
ends after its last one (R232): J is then 0 and no loop state is held (log entry 43). -/
def vAdvance (s : State) (c : Nat) : State :=
  let v := (s.core c).v
  if v.active then
    match nextInstance s c v.trip v.body v.iterJ.toNat (v.pos + 1) v.stages with
    | some (j, p) => s.modV c fun v => { v with iter := iterWord v.trip p, iterJ := BitVec.ofNat 32 j }
    | none => advanceHead (s.modV c fun v => { v with loop := 0, iter := 0, iterJ := 0 }) c 4 (1 + v.body)
  else advanceHead s c 4 1

/-! ### Issue (R213) -/

/-- What an entry's own rule gives in its issue cycle. -/
inductive VRes where
  /-- Results that land after a latency, with an effect at issue. -/
  | land (lat : Nat) (ts : List Target) (f : State → State)
  /-- No result: the entry completes at issue. -/
  | now (f : State → State)
  /-- A loop of n iterations over b entries in some stages starts (R230). -/
  | loop (n b stages : Nat)
  | trap (cause : Nat) (s : State)
  /-- A trap whose INFO is not the command word (R362). -/
  | trapInfo (cause : Nat) (info : Option Nat) (s : State)
  /-- A condition of its own rule does not hold yet. -/
  | hold (s : State)

/-- Pops the data queues an entry names (R22). -/
def popQueues (s : State) (c : Nat) (l : List Nat) : State :=
  l.foldl (fun s q => progress (s.modQ c fun x => { x with dq := mapMod [] q (fun l => l.drop 1) x.dq }) c) s

/-- Whether the queues an entry names are ready (R213). -/
def queuesReady (k : Core) (l : List Nat) : Bool :=
  l.all fun q => match mapGet [] q k.q.dq with
    | x :: _ => x.ready ≤ k.cy
    | [] => false

/-- Issue of a V entry: the checks of R171, the conditions of R213, then the command's own effect. -/
def vEntry (form : VForm) (w : VWord) (body : State → VRes) (s : State) : Host.Outcome State Fault Refusal :=
  let c := s.cur.1
  let k := s.me
  match form.fault k.v.active w with
  | some cause => .next (trapEngine s c 4 cause none)
  | none =>
    let qs := form.queues w
    let sq := form.vd = .dest && isSq w.vd.toNat
    if !waitReady k 4 w.wait || !queuesReady k qs || (sq && 8 ≤ (mapGet [] (w.vd.toNat - 72) k.q.sq).length) then .next s
    else
      match body s with
      | .hold s => .next s
      | .trap cause s => .next (trapEngine s c 4 cause none)
      | .trapInfo cause info s => .next (trapEngine s c 4 cause info)
      | .land lat ts f =>
        let addr := (entryAddr k 4).toNat
        let s := if k.v.active then popWait s c 4 w.wait else startEntry s c 4 1 w.wait
        let s := popQueues s c qs
        let s := if sq then
            (progress (s.modQ c fun x => { x with sq := mapMod [] (w.vd.toNat - 72) (· ++ [⟨k.v.slotId, none, Rel.none⟩]) x.sq }) c).modV c fun v => { v with slotId := v.slotId + 1 }
          else s
        let s := f s
        let word := ((s.core c).engine 4).word
        let fin := loopEnds s c
        let s := s.modV c fun v =>
          { v with next := k.cy + 1, landings := landInsert { due := k.cy + lat, targets := ts, signal := w.signal, rel := Rel.none, isEntry := true, word := word, addr := addr, loop := fin } v.landings }
        .next (vAdvance s c)
      | .now f =>
        let s := if k.v.active then popWait s c 4 w.wait else startEntry s c 4 1 w.wait
        let s := popQueues s c qs
        let s := f s
        let s := completeV s c false w.signal (loopEnds s c)
        let s := s.modV c fun v => { v with next := k.cy + 1 }
        .next (vAdvance s c)
      | .loop n b stages =>
        let s := startEntry s c 4 (1 + b) w.wait
        let s := s.modV c fun v => { v with next := k.cy + 1 }
        match nextInstance s c n b 0 0 stages with
        | none => .next (advanceHead (completeEntry s c 4 w.signal) c 4 (1 + b))
        | some (j, p) =>
          .next (s.modV c fun v =>
            { v with loop := loopWord stages b, iter := iterWord n p, iterJ := BitVec.ofNat 32 j, loopSignal := w.signal })

/-- A command that computes each lane from up to three sources and writes its destination under its mask. -/
def vLanes (form : VForm) (lat : Nat) (w : VWord) (f : Nat → W32 → W32 → W32 → W32) (s : State) : Host.Outcome State Fault Refusal :=
  vEntry form w (fun s =>
    let k := s.me
    let mode := roundMode k 4 w.round
    let a := k.vsrc w.va.toNat
    let b := k.vsrc w.vb.toNat
    let c := k.vsrc w.vc.toNat
    .land lat [k.vdest w.vd.toNat (k.v.mask w.mask.toNat) (mkLanes fun i => f mode (laneAt a i) (laneAt b i) (laneAt c i))] id) s

/-- A compare (R217): a mask, false outside the command's mask. -/
def vCompare (w : VWord) (f : W32 → W32 → Bool) (s : State) : Host.Outcome State Fault Refusal :=
  vEntry fCmp w (fun s =>
    let k := s.me
    let a := k.vsrc w.va.toNat
    let b := k.vsrc w.vb.toNat
    .land 2 [.mask w.vd.toNat (mkMask (fun i => f (laneAt a i) (laneAt b i)) &&& k.v.mask w.mask.toNat)] id) s

/-- A mask command (R219), ANDed with the command's own mask. -/
def vMask (form : VForm) (w : VWord) (f : W64 → W64 → W64) (s : State) : Host.Outcome State Fault Refusal :=
  vEntry form w (fun s =>
    let v := s.me.v
    .land 2 [.mask w.vd.toNat (f (v.mask (w.va.toNat % 8)) (v.mask (w.vb.toNat % 8)) &&& v.mask w.mask.toNat)] id) s

end Sys2Proof.Machine
end

