-- ==== Sys2Proof/Machine/Vector.lean ====
section
/-! DEFINITION. The meanings of the V commands beside the coder's (R215 to R234), with the latencies of R235. -/
namespace Sys2Proof.Machine

abbrev Out := Host.Outcome State Fault Refusal

/-! ### setrm, enop, vtos, vloop (R227, R230, R234) -/

/-- R234. -/
def execVSetrm (w : VWord) (s : State) : Out :=
  vEntry fSetrm w (fun _ => .now fun s => s.modMe fun k => { k with rm := mapSet 4 w.round.toNat k.rm }) s
/-- R234. -/
def execVEnop (w : VWord) (s : State) : Out := vEntry fEnop w (fun _ => .now id) s

/-- R227: a value for the inbox, two cycles after the issue. A mod above 3 is out of range (R212). -/
def execVtos (w : VWord) (s : State) : Out :=
  vEntry (fVtos w) w (fun s =>
    let k := s.me
    let x := laneAt (k.vsrc w.va.toNat) w.vb.toNat
    let m := w.mod.toNat
    .land 2 [.inbox (if m = 0 then x.setWidth 64 else if m = 1 then x.signExtend 64 else if m = 2 then k.v.res else k.v.mask (w.va.toNat % 8))] id) s

/-- R230: a body longer than the ring traps; the loop then waits for all its entries to be present, and at its issue a trip count that
is too large, a body entry of a stage beyond the loop's, and a `vloop` in the body trap. -/
def execVloop (w : VWord) (s : State) : Out :=
  vEntry fVloop w (fun s =>
    let c := s.cur.1
    let k := s.me
    let b := w.vd.toNat
    let st := w.mod.toNat + 1
    let n := (mapGet 0#32 (w.va.toNat - 80) k.v.k).toNat
    let words := (List.range b).map fun i => ringWord s c 4 (1 + i)
    if k.v.active || decide ((k.engine 4).ring.size < 1 + b) then .trap 0x02 s
    else if !wordsPresent s c 4 (1 + b) then .hold s
    else if ringPoisoned s c 4 1 b then .trap 0x54 s
    else if decide (2 ^ 32 - 8 < n) || words.any fun x => decide (st ≤ x.toNat / 2 ^ 6 % 8) || decide (x.toNat / 2 ^ 40 % 256 = 4) then .trap 0x02 s
    else .loop n b st) s

/-! ### Deferral queues (R228, R229) -/

/-- R228: appends a record for each lane of the mask; an overflow traps and appends nothing. -/
def execVdefer (w : VWord) (s : State) : Out :=
  vEntry fVdefer w (fun s =>
    let k := s.me
    let en := k.v.mask w.mask.toNat
    let path := w.mod.toNat
    let q := mapGet [] path k.v.defer
    let a := k.vsrc w.va.toNat
    let b := k.vsrc w.vb.toNat
    let c := k.vsrc w.vc.toNat
    let new : List DefRec := (lanes64.filter fun i => en.getLsbD i).map fun i => ⟨i, laneAt a i, laneAt b i, laneAt c i⟩
    if 256 < q.length + new.length then .trap 0x27 s
    else .now fun s =>
      let s := s.modMe fun k => { k with v := { k.v with defer := mapPut [] path (q ++ new) k.v.defer } }
      if new.isEmpty then s else progress s s.cur.1) s

/-- R229: pops up to 64 records into four registers and a mask. -/
def execVdrain (w : VWord) (s : State) : Out :=
  vEntry fVdrain w (fun s =>
    let k := s.me
    let path := w.mod.toNat
    let q := mapGet [] path k.v.defer
    let n := if w.vb = 1 then min q.length 64 else if 64 ≤ q.length then 64 else 0
    let en := mkMask fun i => i < n
    let r (i : Nat) : DefRec := q.getD i ⟨0, 0, 0, 0⟩
    let dest (j : Nat) (f : DefRec → W32) : Target := .vreg (k.v.phys (w.vd.toNat + j)) (mkLanes fun i => f (r i)) en
    .land 4 [dest 0 fun r => BitVec.ofNat 32 r.lane, dest 1 fun r => r.a, dest 2 fun r => r.b, dest 3 fun r => r.c, .mask w.va.toNat en]
      fun s =>
        let s := s.modMe fun k => { k with v := { k.v with defer := mapPut [] path (q.drop n) k.v.defer } }
        if n = 0 then s else progress s s.cur.1) s

/-! ### Selection and masks (R217 to R219) -/

/-- R218: every lane is written. -/
def execVsel (w : VWord) (s : State) : Out :=
  vEntry fVsel w (fun s =>
    let k := s.me
    let en := k.v.mask w.mask.toNat
    .land 2 [k.vdest w.vd.toNat (BitVec.allOnes 64) (mergeLanes en (k.vsrc w.va.toNat) (k.vsrc w.vb.toNat))] id) s
/-- R219. -/
def execVmand (w : VWord) (s : State) : Out := vMask fMask2 w (fun a b => a &&& b) s
/-- R219. -/
def execVmor (w : VWord) (s : State) : Out := vMask fMask2 w (fun a b => a ||| b) s
/-- R219. -/
def execVmxor (w : VWord) (s : State) : Out := vMask fMask2 w (fun a b => a ^^^ b) s
/-- R219. -/
def execVmandn (w : VWord) (s : State) : Out := vMask fMask2 w (fun a b => a &&& ~~~b) s
/-- R219. -/
def execVmnot (w : VWord) (s : State) : Out := vMask fMask1 w (fun a _ => ~~~a) s
/-- R219: the number of set bits in every enabled lane. -/
def execVmpop (w : VWord) (s : State) : Out :=
  vEntry fMpop w (fun s =>
    let k := s.me
    .land 2 [k.vdest w.vd.toNat (k.v.mask w.mask.toNat) (mkLanes fun _ => BitVec.ofNat 32 (popW (k.v.mask (w.va.toNat % 8))))] id) s

/-! ### Integer and bitwise commands (R215) -/
/-- R215. -/
def execVaddI32 (w : VWord) (s : State) : Out :=
  vLanes fBin 2 w (fun _ a b _ => a + b) s

/-- R215. -/
def execVsubI32 (w : VWord) (s : State) : Out :=
  vLanes fBin 2 w (fun _ a b _ => a - b) s

/-- R215. -/
def execVmulI32 (w : VWord) (s : State) : Out :=
  vLanes fBin 2 w (fun _ a b _ => a * b) s

/-- R215. -/
def execVmulhI32 (w : VWord) (s : State) : Out :=
  vLanes fBin 2 w (fun _ a b _ => BitVec.ofInt 32 (a.toInt * b.toInt / (2 : Int) ^ 32)) s

/-- R215. -/
def execVmulhN32 (w : VWord) (s : State) : Out :=
  vLanes fBin 2 w (fun _ a b _ => BitVec.ofNat 32 (a.toNat * b.toNat / 2 ^ 32)) s

/-- R215. -/
def execVdivI32 (w : VWord) (s : State) : Out :=
  vLanes fBin 18 w (fun _ a b _ => divS a b) s

/-- R215. -/
def execVdivN32 (w : VWord) (s : State) : Out :=
  vLanes fBin 18 w (fun _ a b _ => divU a b) s

/-- R215. -/
def execVminI32 (w : VWord) (s : State) : Out :=
  vLanes fBin 2 w (fun _ a b _ => if b.slt a then b else a) s

/-- R215. -/
def execVmaxI32 (w : VWord) (s : State) : Out :=
  vLanes fBin 2 w (fun _ a b _ => if a.slt b then b else a) s

/-- R215. -/
def execVminN32 (w : VWord) (s : State) : Out :=
  vLanes fBin 2 w (fun _ a b _ => if b.ult a then b else a) s

/-- R215. -/
def execVmaxN32 (w : VWord) (s : State) : Out :=
  vLanes fBin 2 w (fun _ a b _ => if a.ult b then b else a) s

/-- R215. -/
def execVaddsI32 (w : VWord) (s : State) : Out :=
  vLanes fBin 2 w (fun _ a b _ => BitVec.ofInt 32 (satI 32 (a.toInt + b.toInt))) s

/-- R215. -/
def execVand (w : VWord) (s : State) : Out :=
  vLanes fBin 2 w (fun _ a b _ => a &&& b) s

/-- R215. -/
def execVor (w : VWord) (s : State) : Out :=
  vLanes fBin 2 w (fun _ a b _ => a ||| b) s

/-- R215. -/
def execVxor (w : VWord) (s : State) : Out :=
  vLanes fBin 2 w (fun _ a b _ => a ^^^ b) s

/-- R215. -/
def execVandn (w : VWord) (s : State) : Out :=
  vLanes fBin 2 w (fun _ a b _ => a &&& ~~~b) s

/-- R215. -/
def execVsll (w : VWord) (s : State) : Out :=
  vLanes fBin 2 w (fun _ a b _ => a <<< (b.toNat % 32)) s

/-- R215. -/
def execVsrl (w : VWord) (s : State) : Out :=
  vLanes fBin 2 w (fun _ a b _ => a >>> (b.toNat % 32)) s

/-- R215. -/
def execVsra (w : VWord) (s : State) : Out :=
  vLanes fBin 2 w (fun _ a b _ => a.sshiftRight (b.toNat % 32)) s

/-- R215: 32 for zero. -/
def execVclz (w : VWord) (s : State) : Out :=
  vLanes fUn 2 w (fun _ a _ _ => BitVec.ofNat 32 (clzW a)) s

/-- R215: the low half of the carry-less product. -/
def execVclmul (w : VWord) (s : State) : Out :=
  vLanes fBin 2 w (fun _ a b _ => BitVec.ofNat 32 (clmulW a b)) s

/-- R215: the high half of the carry-less product. -/
def execVclmulh (w : VWord) (s : State) : Out :=
  vLanes fBin 2 w (fun _ a b _ => BitVec.ofNat 32 (clmulW a b / 2 ^ 32)) s

/-! ### Floating point (R216) -/

/-- R216. -/
def execVaddF32 (w : VWord) (s : State) : Out :=
  vLanes fBinR 4 w (fun r a b _ => pk32 r (addV r (un32 a) (un32 b))) s

/-- R216. -/
def execVsubF32 (w : VWord) (s : State) : Out :=
  vLanes fBinR 4 w (fun r a b _ => pk32 r (addV r (un32 a) (un32 b).neg)) s

/-- R216. -/
def execVmulF32 (w : VWord) (s : State) : Out :=
  vLanes fBinR 4 w (fun r a b _ => pk32 r (mulV (un32 a) (un32 b))) s

/-- R216. -/
def execVfmaF32 (w : VWord) (s : State) : Out :=
  vLanes fTerR 5 w (fun r a b c => pk32 r (addV r (mulV (un32 a) (un32 b)) (un32 c))) s

/-- R216. -/
def execVfmsF32 (w : VWord) (s : State) : Out :=
  vLanes fTerR 5 w (fun r a b c => pk32 r (addV r (mulV (un32 a) (un32 b)) (un32 c).neg)) s

/-- R216. -/
def execVdivF32 (w : VWord) (s : State) : Out :=
  vLanes fBinR 18 w (fun r a b _ => BitVec.ofNat 32 (divR f32 r (un32 a) (un32 b))) s

/-- R216. -/
def execVsqrtF32 (w : VWord) (s : State) : Out :=
  vLanes fUnR 18 w (fun r a _ _ => BitVec.ofNat 32 (sqrtR f32 r (un32 a))) s

/-- R216. -/
def execVminF32 (w : VWord) (s : State) : Out :=
  vLanes fBin 2 w (fun _ a b _ => minF a b) s

/-- R216. -/
def execVmaxF32 (w : VWord) (s : State) : Out :=
  vLanes fBin 2 w (fun _ a b _ => maxF a b) s

/-- R216. -/
def execVabsF32 (w : VWord) (s : State) : Out :=
  vLanes fUn 2 w (fun _ a _ _ => if isNan (un32 a) then BitVec.ofNat 32 f32.nan else a &&& 0x7FFFFFFF#32) s

/-- R216. -/
def execVnegF32 (w : VWord) (s : State) : Out :=
  vLanes fUn 2 w (fun _ a _ _ => if isNan (un32 a) then BitVec.ofNat 32 f32.nan else a ^^^ 0x80000000#32) s

/-- R216. -/
def execVexp2F32 (w : VWord) (s : State) : Out :=
  vLanes fUnR 12 w (fun r a _ _ => BitVec.ofNat 32 (exp2R f32 r (un32 a))) s

/-! ### Compares (R217) -/

/-- R217. -/
def execVcmpEqI32 (w : VWord) (s : State) : Out := vCompare w (fun a b => a == b) s

/-- R217. -/
def execVcmpLtI32 (w : VWord) (s : State) : Out := vCompare w (fun a b => a.slt b) s

/-- R217. -/
def execVcmpLeI32 (w : VWord) (s : State) : Out := vCompare w (fun a b => a.sle b) s

/-- R217. -/
def execVcmpLtN32 (w : VWord) (s : State) : Out := vCompare w (fun a b => a.ult b) s

/-- R217. -/
def execVcmpEqF32 (w : VWord) (s : State) : Out := vCompare w (fun a b => eqV (un32 a) (un32 b)) s

/-- R217. -/
def execVcmpLtF32 (w : VWord) (s : State) : Out := vCompare w (fun a b => ltV (un32 a) (un32 b)) s

/-- R217. -/
def execVcmpLeF32 (w : VWord) (s : State) : Out := vCompare w (fun a b => ltV (un32 a) (un32 b) || eqV (un32 a) (un32 b)) s

/-- R217. -/
def execVcmpUnF32 (w : VWord) (s : State) : Out := vCompare w (fun a b => isNan (un32 a) || isNan (un32 b)) s

/-! ### Conversions and block formats (R220 to R222) -/

/-- R220. -/
def execVcvtF32I32 (w : VWord) (s : State) : Out :=
  vLanes fUnR 4 w (fun r a _ _ => pk32 r (ofIntV a.toInt)) s

/-- R220. -/
def execVcvtI32F32 (w : VWord) (s : State) : Out :=
  vLanes fUnR 4 w (fun r a _ _ => BitVec.ofInt 32 (toIntSat 32 r (un32 a))) s

/-- R220: exact. -/
def execVcvtF32F16 (w : VWord) (s : State) : Out :=
  vLanes fUn 4 w (fun _ a _ _ => pk32 1 (unpack f16 (a.toNat % 65536))) s

/-- R220: exact. -/
def execVcvtF32Bf16 (w : VWord) (s : State) : Out :=
  vLanes fUn 4 w (fun _ a _ _ => pk32 1 (unpack bf16 (a.toNat % 65536))) s

/-- R220. -/
def execVcvtF16F32 (w : VWord) (s : State) : Out :=
  vLanes fUnR 4 w (fun r a _ _ => BitVec.ofNat 32 (pack f16 r (un32 a))) s

/-- R220. -/
def execVcvtBf16F32 (w : VWord) (s : State) : Out :=
  vLanes fUnR 4 w (fun r a _ _ => BitVec.ofNat 32 (pack bf16 r (un32 a))) s

/-- R221: narrows two blocks; a given exponent of 255 traps and nothing is popped or written. -/
def execVnarrow (w : VWord) (s : State) : Out :=
  vEntry (fNarrow w) w (fun s =>
    let k := s.me
    let mode := roundMode k 4 w.round
    let m := widthOf w.mod.toNat
    let a := k.vsrc w.va.toNat
    let b := k.vsrc w.vb.toNat
    let e (i : Nat) : Nat := (laneAt b (i / 32 * 32)).toNat % 256
    if e 0 = 255 ∨ e 32 = 255 then .trap 0x33 s
    else
      let r := lanes64.map fun i => narrowElem m (e i) mode (laneAt a i)
      let mant := r.map (·.1)
      let outl (i : Nat) : Bool := (r.getD i (0, false)).2
      let mo := w.vc.toNat
      if isSq w.vd.toNat then
        .land 4 [.slot (w.vd.toNat - 72) k.v.slotId (.block m mant (BitVec.ofNat 8 (e 0)) (BitVec.ofNat 8 (e 32)) ((lanes64.filter outl).map fun i => (i, laneAt a i)))] id
      else
        .land 4 ([k.vdest w.vd.toNat (BitVec.allOnes 64) (mant.map fun x => BitVec.ofInt 32 x)] ++ if mo = 0 then [] else [.mask (mo % 8) (mkMask outl)]) id) s

/-- R222: exact, with the block's exponent. DESIGN CHOICE (log entry 56): the one value that binary32 cannot hold,
-2^128, becomes minus infinity. -/
def execVwiden (w : VWord) (s : State) : Out :=
  vEntry fWiden w (fun s =>
    let k := s.me
    let m := widthOf w.mod.toNat
    let a := k.vsrc w.va.toNat
    let b := k.vsrc w.vb.toNat
    .land 4 [k.vdest w.vd.toNat (k.v.mask w.mask.toNat)
      (mkLanes fun i => pk32 1 (blockVal m ((laneAt b (i / 32 * 32)).toNat % 256) (signedOf m (laneAt a i).toNat)))] id) s

/-! ### Permutes and slides (R223) -/

/-- A command that moves lanes of its two sources. -/
def vMove (form : VForm) (w : VWord) (f : Lanes → Lanes → Nat → W32) (s : State) : Out :=
  vEntry form w (fun s =>
    let k := s.me
    let a := k.vsrc w.va.toNat
    let b := k.vsrc w.vb.toNat
    .land 2 [k.vdest w.vd.toNat (k.v.mask w.mask.toNat) (mkLanes (f a b))] id) s
/-- R223. -/
def execVperm (w : VWord) (s : State) : Out :=
  vMove fBin w (fun a b i => if (laneAt b i).toNat < 64 then laneAt a (laneAt b i).toNat else 0) s
/-- R223. -/
def execVslideup (w : VWord) (s : State) : Out :=
  vMove fSlide w (fun a b i => let n := w.vc.toNat; if n ≤ i then laneAt a (i - n) else laneAt b (64 + i - n)) s
/-- R223. -/
def execVslidedn (w : VWord) (s : State) : Out :=
  vMove fSlide w (fun a b i => let n := w.vc.toNat; if i + n < 64 then laneAt a (i + n) else laneAt b (i + n - 64)) s
/-- R223. -/
def execVbcast (w : VWord) (s : State) : Out := vMove fBcast w (fun a _ _ => laneAt a w.vb.toNat) s
/-- R223: `.lane` adds the lane number. -/
def execVmov (w : VWord) (s : State) : Out :=
  vMove fMov w (fun a _ i => if w.mod = 1 then laneAt a i + BitVec.ofNat 32 i else laneAt a i) s

/-! ### Reductions (R224, R225) -/

/-- The fixed tree of R224; absent lanes leave their partner unchanged. -/
def reduceTree {α : Type} (comb : α → α → α) (t : List (Option α)) : Option α :=
  let join (a b : Option α) : Option α := match a, b with
    | none, b => b
    | a, none => a
    | some a, some b => some (comb a b)
  ((([32, 16, 8, 4, 2, 1] : List Nat)).foldl (fun t w => (List.range w).map fun i => join (t.getD i none) (t.getD (i + w) none)) t).headD none

/-- The lanes a reduction combines. -/
def reduceIn {α : Type} (k : Core) (w : VWord) (f : W32 → Option α) : List (Option α) :=
  let a := k.vsrc w.va.toNat
  let en := k.v.mask w.mask.toNat
  lanes64.map fun i => if en.getLsbD i then f (laneAt a i) else none

/-- Delivers a reduction's result (R225). -/
def reduceOut (k : Core) (w : VWord) (lat : Nat) (r : W32) (res : W64) : VRes :=
  .land lat ([k.vdest w.vd.toNat (BitVec.allOnes 64) (mkLanes fun _ => r), .res res] ++ if w.mod.getLsbD 0 then [.inbox res] else []) id

/-- R224, R225. -/
def execVredaddF32 (w : VWord) (s : State) : Out :=
  vEntry fRedF32 w (fun s =>
    let k := s.me
    let mode := roundMode k 4 w.round
    let r := (reduceTree (fun a b => pk32 mode (addV mode (un32 a) (un32 b))) (reduceIn k w some)).getD 0
    let r := if isNan (un32 r) then BitVec.ofNat 32 f32.nan else r
    reduceOut k w 12 r (r.setWidth 64)) s
/-- R224, R225: into binary64, with no vector destination. -/
def execVredaddF64 (w : VWord) (s : State) : Out :=
  vEntry fRedF64 w (fun s =>
    let k := s.me
    let mode := roundMode k 4 w.round
    let r := (reduceTree (fun a b => pack f64 mode (addV mode (unpack f64 a) (unpack f64 b))) (reduceIn k w fun x => some (pack f64 mode (un32 x)))).getD 0
    let res := BitVec.ofNat 64 r
    .land 14 ([.res res] ++ if w.mod.getLsbD 0 then [.inbox res] else []) id) s
/-- R224, R225: NaN lanes are absent; `.abs` takes magnitudes. -/
def execVredmaxF32 (w : VWord) (s : State) : Out :=
  vEntry fRedMax w (fun s =>
    let k := s.me
    let f (x : W32) : Option W32 := if isNan (un32 x) then none else some (if w.mod.getLsbD 1 then x &&& 0x7FFFFFFF#32 else x)
    let r := (reduceTree maxF (reduceIn k w f)).getD 0xFF800000#32
    reduceOut k w 6 r (r.setWidth 64)) s
/-- R224, R225: modulo 2^32. -/
def execVredaddI32 (w : VWord) (s : State) : Out :=
  vEntry fRedI32 w (fun s =>
    let k := s.me
    let r := (reduceTree (fun a b => a + b) (reduceIn k w some)).getD 0
    reduceOut k w 6 r (r.signExtend 64)) s

/-! ### Top-k (R226) -/

/-- An element of the state or a candidate: its value, its index, and its place among equal ones. -/
structure TopElem where
  value : W32
  index : W32
  deriving DecidableEq, Repr

/-- better(x, y) of R226, for an x that stands before y where their indices are equal. -/
def topBefore (x y : TopElem) : Bool :=
  let a := un32 x.value
  let b := un32 y.value
  if isNan a != isNan b then !isNan a
  else if ltV b a then true
  else if ltV a b then false
  else x.index.ule y.index

/-- Merges an element behind those that are better or stand before it. -/
def topInsert (x : TopElem) : List TopElem → List TopElem
  | [] => [x]
  | y :: r => if topBefore y x then y :: topInsert x r else x :: y :: r

/-- R226: the k best of the state and the enabled candidates. -/
def execVtopk (w : VWord) (s : State) : Out :=
  vEntry fTopk w (fun s =>
    let k := s.me
    let n := w.vc.toNat
    let sv := k.vsrc w.vd.toNat
    let si := k.vsrc (w.vd.toNat + 1)
    let cv := k.vsrc w.va.toNat
    let ci := k.vsrc w.vb.toNat
    let en := k.v.mask w.mask.toNat
    let elems := ((List.range n).map fun j => (⟨laneAt sv j, laneAt si j⟩ : TopElem)) ++ ((lanes64.filter fun i => en.getLsbD i).map fun i => ⟨laneAt cv i, laneAt ci i⟩)
    let best := elems.foldl (fun l x => topInsert x l) []
    let canon (x : W32) : W32 := if isNan (un32 x) then BitVec.ofNat 32 f32.nan else x
    let lanes := mkMask fun i => i < n
    let at_ (i : Nat) : TopElem := best.getD i ⟨0, 0⟩
    .land 8 [.vreg (k.v.phys w.vd.toNat) (mkLanes fun i => canon (at_ i).value) lanes, .vreg (k.v.phys (w.vd.toNat + 1)) (mkLanes fun i => (at_ i).index) lanes] id) s

end Sys2Proof.Machine
end

