-- ==== Sys2Proof/Machine/Coder.lean ====
section
/-! DEFINITION. The range coder (R236 to R257): its arithmetic, its reads and writes of core memory, and the meanings of
the coder commands. -/
namespace Sys2Proof.Machine

/-! ### The arithmetic (R241 to R244) -/

/-- `getbyte` of R242. -/
def getByte (rd : Nat → Byte) (l : CoderLane) : Byte × CoderLane :=
  let pos := l.pos.toNat
  let fin := l.fin.toNat
  if pos < fin then (rd pos, { l with pos := l.pos + 1 })
  else (0, { l with pos := l.pos + 1, flags := if 4 ≤ pos - fin then l.flags ||| 2#4 else l.flags })

/-- Normalisation of a decoder (R241). -/
def normDec (rd : Nat → Byte) (l : CoderLane) : Nat → CoderLane
  | 0 => l
  | n + 1 =>
    if l.range.toNat < 2 ^ 24 then
      let (b, l) := getByte rd l
      normDec rd { l with range := l.range <<< 8, low := ((l.low.setWidth 32 <<< 8) ||| b.setWidth 32).setWidth 33 } n
    else l

/-- R241: the bit, and the lane after it. -/
def decodeBin (rd : Nat → Byte) (p : Nat) (l : CoderLane) : Nat × CoderLane :=
  let bound := BitVec.ofNat 32 (l.range.toNat / 2 ^ 15 * p)
  let code := l.low.setWidth 32
  if code.ult bound then (0, normDec rd { l with range := bound } 4)
  else (1, normDec rd { l with low := (code - bound).setWidth 33, range := l.range - bound } 4)

/-- The symbol with c[s] ≤ t < c[s+1]. -/
def symbolOf (c : List Nat) (t : Nat) : Nat := ((c.drop 1).findIdx fun x => t < x)

/-- R244: the symbol, and the lane after it. -/
def decodeMulti (rd : Nat → Byte) (b : CdfBank) (l : CoderLane) : Nat × CoderLane :=
  let r := l.range.toNat / 2 ^ 15
  let code := (l.low.setWidth 32).toNat
  let t := min (code / r) 32767
  let s := symbolOf b.c t
  let lo := b.c.getD s 0
  let range := if s + 1 = b.n then l.range.toNat - r * lo else r * (b.c.getD (s + 1) 0 - lo)
  (s, normDec rd { l with low := BitVec.ofNat 33 ((code + 2 ^ 32 - r * lo) % 2 ^ 32), range := BitVec.ofNat 32 range } 4)

/-- An encoder lane with its writes, oldest first: a byte each, but for a header of 16 bytes (R252). -/
structure EncState where
  lane : CoderLane
  out : List (Nat × List Byte)
  deriving DecidableEq, Repr

/-- `putbyte` of R243. -/
def putByte (b : Byte) (e : EncState) : EncState :=
  let l := e.lane
  if l.pos.toNat < l.fin.toNat then ⟨{ l with pos := l.pos + 1 }, e.out ++ [(l.pos.toNat, [b])]⟩
  else ⟨{ l with pos := l.pos + 1, flags := l.flags ||| 4#4 }, e.out⟩

/-- A run of n equal bytes: those before END are written, the others counted. -/
def putRun (b : Byte) (n : Nat) (e : EncState) : EncState :=
  let l := e.lane
  let room := l.fin.toNat - l.pos.toNat
  ⟨{ l with pos := l.pos + BitVec.ofNat 32 n, flags := if room < n then l.flags ||| 4#4 else l.flags }
   , e.out ++ (List.range (min n room)).map fun i => (l.pos.toNat + i, [b])⟩

/-- `shiftlow` of R243. -/
def shiftLow (e : EncState) : EncState :=
  let low := e.lane.low.toNat
  let e :=
    if low < 0xFF000000 ∨ 2 ^ 32 ≤ low then
      let carry := low / 2 ^ 32
      let e := if e.lane.hasCache then putByte (e.lane.cache + BitVec.ofNat 8 carry) e else e
      let e := putRun (0xFF#8 + BitVec.ofNat 8 carry) e.lane.pending.toNat e
      { e with lane := { e.lane with pending := 0, cache := BitVec.ofNat 8 (low / 2 ^ 24), hasCache := true } }
    else { e with lane := { e.lane with pending := e.lane.pending + 1 } }
  { e with lane := { e.lane with low := BitVec.ofNat 33 (low * 256 % 2 ^ 32) } }

/-- Normalisation of an encoder (R241). -/
def normEnc (e : EncState) : Nat → EncState
  | 0 => e
  | n + 1 =>
    if e.lane.range.toNat < 2 ^ 24 then normEnc (shiftLow { e with lane := { e.lane with range := e.lane.range <<< 8 } }) n else e

/-- R241. -/
def encodeBin (bit p : Nat) (l : CoderLane) : EncState :=
  let bound := l.range.toNat / 2 ^ 15 * p
  normEnc ⟨if bit = 0 then { l with range := BitVec.ofNat 32 bound }
    else { l with low := l.low + BitVec.ofNat 33 bound, range := l.range - BitVec.ofNat 32 bound }, []⟩ 4

/-- R244. -/
def encodeMulti (b : CdfBank) (sym : Nat) (l : CoderLane) : EncState :=
  let r := l.range.toNat / 2 ^ 15
  let lo := b.c.getD sym 0
  let range := if sym + 1 = b.n then l.range.toNat - r * lo else r * (b.c.getD (sym + 1) 0 - lo)
  normEnc ⟨{ l with low := l.low + BitVec.ofNat 33 (r * lo), range := BitVec.ofNat 32 range }, []⟩ 4

/-! ### Access to core memory (R238) -/

def coreBytes : Nat := 524288

/-- What a coder's read gives: the state after it, a wait, or a trap. -/
inductive CRead where
  | ok (s : State)
  | hold (m : Option StallMark)
  | trap (cause : Nat) (info : Option Nat) (s : State)

/-- Whether the granules of offsets of a core's memory are full. -/
def granulesFull (s : State) (c : Nat) (offs : List Nat) : Bool := offs.all fun o => isFull s (granKey c o)

/-- L1 acquires what the setters of granules released (R106, R238). -/
def acquireGranules (s : State) (c : Nat) (offs : List Nat) : State :=
  ((offs.map (granKey c)).eraseDups).foldl (fun s g => match (mapFind g s.full).getD none with
    | some r => acquireBy s c 2 0 r
    | none => s) s

/-- The checks of reads of bytes of core memory as reads of L1 in class oc0, one race check for each sector at the first of its bytes that is read.
DESIGN CHOICE (log entry 16): they are checked against L1's table, which what the V entry itself acquired at its start (its `enq`, the tokens it popped) is no part
of. -/
def coderReads (s : State) (c : Nat) (offs : List Nat) : CRead :=
  let sectors := (offs.map (· / 64)).eraseDups
  let w := whoCore s c 2
  if offs.any fun o => watermarkStall s w (coreBase c + o) 1 then .hold (offs.findSome? fun o => stallMark s w (coreBase c + o) 1)
  else if offs.any fun o => rangePoisoned s (coreBase c + o) 1 then .trap 0x54 none s
  else
    sectors.foldl (fun acc x =>
      match acc with
      | .ok s =>
        match raceCheck s w (0x000FFFFFFFF80000 + (offs.find? fun o => o / 64 = x).getD (x * 64)) (coreBase c + x * 64) 0 false with
        | .ok _ s => .ok s
        | .trap cause info s => .trap cause info s
        | .stall m => .hold m
        | .miss _ _ _ => .hold none
      | r => r) (.ok s)

/-- Reads at issue: what they leave is part of the issue (R213, R238). The granules they waited for are acquired before the reads
are checked (R391). -/
def readEffect (c : Nat) (waited offs : List Nat) (s : State) : State :=
  match coderReads (acquireGranules s c waited) c offs with
  | .ok t => t
  | .hold _ => s
  | .trap _ _ t => t

/-- Reads, then results that land after a latency. -/
def withReads (s : State) (c : Nat) (waited offs : List Nat) (lat : Nat) (ts : List Target) (f : State → State) : VRes :=
  match coderReads (acquireGranules s c waited) c offs with
  | .ok _ => .land lat ts fun s => f (readEffect c waited offs s)
  | .hold m => .hold (noteStall s m)
  | .trap cause info t => .trapInfo cause info t

/-- A byte of a core's memory. -/
def coreByte (s : State) (c o : Nat) : Byte := memByte s.mem (coreBase c + o)

/-! ### Lanes and masks (R237, R250) -/

def Core.lane (k : Core) (i : Nat) : CoderLane := mapGet CoderLane.reset i k.v.coder
/-- The enabled lanes of a command. -/
def enabledLanes (k : Core) (w : VWord) : List Nat := lanes64.filter fun i => (k.v.mask w.mask.toNat).getLsbD i

/-- Whether an earlier lane-state command has yet to land (R250). -/
def coderBusy (v : VUnit) : Bool := v.landings.any fun l => l.targets.any fun t => match t with
  | .coder _ _ _ => true
  | _ => false

/-- The status mask of R237, when the command names one. -/
def statusMask (w : VWord) (ls : List (Nat × CoderLane)) : List Target :=
  if w.vc = 0 then [] else [.mask (w.vc.toNat % 8) (lanesMask ((ls.filter fun e => laneLive e.2).map (·.1)))]

/-- Issue of a lane-state command (R250). -/
def coderEntry (form : VForm) (w : VWord) (body : State → VRes) (s : State) : Out :=
  vEntry form w (fun s => if coderBusy s.me.v then .hold s else body s) s

/-- Offsets of the header's granule and of the bytes from a start. -/
def offsFrom (a n : Nat) : List Nat := (List.range n).map (a + ·)

/-! ### Starting and finishing (R251, R252) -/

/-- The fields of a coded stream's header (R239). -/
structure CodedHeader where
  bytes : Nat
  syms : Nat
  cap : Nat
  ok : Bool
  deriving DecidableEq, Repr
def codedHeader (s : State) (c base : Nat) : CodedHeader :=
  let f (o n : Nat) := memNat s.mem (coreBase c + base + o) n
  let by_ := f 0 4
  let cap := f 8 4
  ⟨by_, f 4 4, cap, by_ ≤ cap && base + 16 + cap ≤ coreBytes && f 12 4 = 0⟩

/-- A base at which a header can stand at all. -/
def baseOk (base : Nat) : Bool := base % 16 = 0 && base + 16 ≤ coreBytes

/-- A decoder lane at the start of a stream (R251). -/
def initDec (s : State) (c base : Nat) (l : CoderLane) : CoderLane :=
  let h := codedHeader s c base
  let l : CoderLane :=
    { l with mode := 1, pos := BitVec.ofNat 32 (base + 16), fin := BitVec.ofNat 32 (base + 16 + h.bytes), count := BitVec.ofNat 32 h.syms
             range := 0xFFFFFFFF, low := 0, base := BitVec.ofNat 32 base, cap := BitVec.ofNat 32 h.cap, flags := 0, slot0 := { l.slot0 with valid := false }, slot1 := { l.slot1 with valid := false } }
  let step (l : CoderLane) : CoderLane :=
    let (b, l) := getByte (coreByte s c) l
    { l with low := ((l.low.setWidth 32 <<< 8) ||| b.setWidth 32).setWidth 33 }
  let l := step (step (step (step l)))
  if l.count = 0 then { l with flags := l.flags ||| 1#4 } else l

/-- The PCLAMP flags of the enabled lanes that a command reads as zero from q registers (R240). -/
def zeroReads (k : Core) (w : VWord) (ns : List Nat) : W64 := ns.foldl (fun m n => m ||| k.qzero n) 0 &&& k.v.mask w.mask.toNat

/-- R251: `rcinit.d`: it waits for the granules of every enabled lane's header and first data bytes, then checks the headers. -/
def execRcinitD (w : VWord) (s : State) : Out :=
  coderEntry fRcinitD w (fun s =>
    let c := s.cur.1
    let k := s.me
    let a := k.csrc w.va.toNat
    let en := enabledLanes k w
    let base (i : Nat) : Nat := (laneAt a i).toNat
    let inside (l : List Nat) : List Nat := l.filter (· < coreBytes)
    let heads := inside (en.flatMap fun i => [base i, base i + 15])
    let need (i : Nat) : List Nat := if base i + 16 ≤ coreBytes then offsFrom (base i + 16) (min 4 (codedHeader s c (base i)).bytes) else []
    if !granulesFull s c heads || !granulesFull s c (inside (en.flatMap need)) then .hold s
    else if en.any fun i => !baseOk (base i) || !(codedHeader s c (base i)).ok then .trap 0x3D s
    else
      let offs := en.flatMap fun i => offsFrom (base i) 16 ++ need i
      let ls := en.map fun i => (i, initDec s c (base i) (k.lane i))
      withReads s c offs offs 8 ([.coder ls [] true, .flags 8 (zeroReads k w [w.va.toNat])] ++ statusMask w ls) id) s

/-- R251: `rcinit.e`; it writes no memory. A mod above 1 is refused under check 4. -/
def execRcinitE (w : VWord) (s : State) : Out :=
  coderEntry fRcinitE w (fun s =>
    let k := s.me
    let a := k.csrc w.va.toNat
    let b := k.csrc w.vb.toNat
    let en := enabledLanes k w
    if en.any fun i => (laneAt a i).toNat % 16 ≠ 0 || decide (coreBytes < (laneAt a i).toNat + 16 + (laneAt b i).toNat) then .trap 0x3D s
    else
      let ls := en.map fun i =>
        let base := laneAt a i
        let cap := laneAt b i
        let l := k.lane i
        (i, { l with mode := 2, low := 0, hasCache := false, cache := 0, pending := 0, range := 0xFFFFFFFF, count := 0, pos := base + 16, fin := base + 16 + cap, base := base, cap := cap, flags := 0, slot0 := { l.slot0 with valid := false }, slot1 := { l.slot1 with valid := false } })
      .land 8 ([.coder ls [] true, .flags 8 (zeroReads k w [w.va.toNat, w.vb.toNat])] ++ statusMask w ls) id) s

/-- R252: what finishing does to one lane, with its writes, the header last and in one write. -/
def finLane (l : CoderLane) : EncState :=
  if l.mode = 1 then
    let l := if l.pos.toNat < l.fin.toNat ∧ 4 < l.fin.toNat - l.pos.toNat then { l with flags := l.flags ||| 4#4 } else l
    ⟨{ l with mode := 0 }, []⟩
  else if l.mode = 2 then
    let e := shiftLow (shiftLow (shiftLow (shiftLow (shiftLow ⟨l, []⟩))))
    let base := l.base.toNat
    let by_ := min (e.lane.pos - l.base - 16).toNat l.cap.toNat
    let head := natBytes by_ 4 ++ natBytes l.count.toNat 4 ++ natBytes l.cap.toNat 4 ++ natBytes (if fOver e.lane.flags then 1 else 0) 4
    ⟨{ e.lane with mode := 0 }, e.out ++ [(base, head)]⟩
  else ⟨l, []⟩

/-- R252. -/
def execRcfin (w : VWord) (s : State) : Out :=
  coderEntry fRcfin w (fun s =>
    let k := s.me
    let r := (enabledLanes k w).map fun i => (i, finLane (k.lane i))
    let ls := r.map fun e => (e.1, e.2.lane)
    let ok := lanesMask ((ls.filter fun e => !fUnder e.2.flags && !fOver e.2.flags).map (·.1))
    .land 8 ([.coder ls (r.flatMap fun e => e.2.out) false] ++ if w.vc = 0 then [] else [.mask (w.vc.toNat % 8) ok]) id) s

/-! ### Decoding and encoding (R253) -/

/-- The bank a slot's readers use (R246). -/
def CdfSlot.bank (x : CdfSlot) : CdfBank := if x.active = 0 then x.bank0 else x.bank1
def Core.cdf (k : Core) (t : Nat) : CdfSlot := mapGet CdfSlot.reset t k.v.cdf

/-- The next two bytes of a decoder's stream that lie before END. -/
def nextBytes (l : CoderLane) : List Nat := (offsFrom l.pos.toNat 2).filter fun o => o < l.fin.toNat

/-- The lanes on which a decision acts (R253). -/
def decides (l : CoderLane) : Bool := !fEnded l.flags && !fUnder l.flags

/-- A decode of one decision per lane: `dec` gives the symbol, the lane after it and whether its probability was
clamped. -/
def decodeEntry2 (form : VForm) (lat : Nat) (w : VWord) (reads : List Nat) (tabs : Core → List Nat → Option Nat) (dec : State → Core → Nat → CoderLane → (Nat × CoderLane) × Bool) (s : State) : Out :=
  coderEntry form w (fun s =>
    let c := s.cur.1
    let k := s.me
    let en := enabledLanes k w
    let next := (en.filter fun i => (k.lane i).mode = 1).flatMap fun i => nextBytes (k.lane i)
    if !granulesFull s c next then .hold s
    else if en.any fun i => (k.lane i).mode ≠ 1 then .trap 0x3E s
    else
      match tabs k en with
      | some cause => .trap cause s
      | none =>
        let r := en.map fun i =>
          let l := k.lane i
          if decides l then
            let ((sym, n), cl) := dec s k i l
            let n := { n with count := n.count - 1 }
            (i, sym, (if n.count = 0 then { n with flags := n.flags ||| 1#4 } else n), cl)
          else (i, 0, l, false)
        let read := r.flatMap fun e => (offsFrom (k.lane e.1).pos.toNat ((e.2.2.1.pos - (k.lane e.1).pos).toNat)).filter fun o => o < (k.lane e.1).fin.toNat
        let ls := r.map fun e => (e.1, e.2.2.1)
        let syms := mkLanes fun i => BitVec.ofNat 32 (((r.find? fun e => e.1 = i).map fun e => e.2.1).getD 0)
        let clamped := lanesMask ((r.filter fun e => e.2.2.2).map (·.1)) ||| (zeroReads k w reads &&& lanesMask (en.filter fun i => decides (k.lane i)))
        let ended := lanesMask (en.filter fun i => fEnded (k.lane i).flags)
        withReads s c next read lat ([k.vdest w.vd.toNat (k.v.mask w.mask.toNat) syms, .coder ls [] false, .flags 8 clamped, .ended ended] ++ statusMask w ls) id) s

/-- R253: a binary decision. -/
def execRcdec (w : VWord) (s : State) : Out :=
  decodeEntry2 fRcdec 4 w [] (fun _ _ => none) (fun s k i l =>
    let q := clampQ (laneAt (k.vsrc w.va.toNat) i)
    (decodeBin (coreByte s s.cur.1) q.1.toNat l, q.2)) s

/-- R253: a multi-symbol decision; an empty table traps with cause 0x39 (R250). -/
def execRcdecm (w : VWord) (s : State) : Out :=
  let tab (k : Core) (i : Nat) : Nat := if w.mod = 0 then w.vb.toNat else (laneAt (k.csrc w.va.toNat) i).toNat % 16
  decodeEntry2 (fRcdecm w) 6 w (if w.mod = 0 then [] else [w.va.toNat])
    (fun k en => if (w.mod = 0 && (k.cdf w.vb.toNat).bank.n = 0) || en.any (fun i => (k.cdf (tab k i)).bank.n = 0) then some 0x39 else none)
    (fun s k i l => (decodeMulti (coreByte s s.cur.1) (k.cdf (tab k i)).bank l, false)) s

/-- An encode of one decision per lane. -/
def encodeEntry2 (form : VForm) (lat : Nat) (w : VWord) (reads : List Nat) (tabs : Core → List Nat → Option Nat) (enc : Core → Nat → CoderLane → EncState × Bool) (s : State) : Out :=
  coderEntry form w (fun s =>
    let k := s.me
    let en := enabledLanes k w
    if en.any fun i => (k.lane i).mode ≠ 2 then .trap 0x3E s
    else
      match tabs k en with
      | some cause => .trap cause s
      | none =>
        let r := en.map fun i =>
          let l := k.lane i
          if fEnded l.flags then (i, (⟨l, []⟩ : EncState), false)
          else
            let (e, cl) := enc k i l
            let n := e.lane.count + 1
            (i, { e with lane := { e.lane with count := n, flags := if n = 0xFFFFFFFF then e.lane.flags ||| 1#4 else e.lane.flags } }, cl)
        let ls := r.map fun e => (e.1, e.2.1.lane)
        let ended := lanesMask (en.filter fun i => fEnded (k.lane i).flags)
        let clamped := lanesMask ((r.filter fun e => e.2.2).map (·.1)) ||| (zeroReads k w reads &&& ~~~ended)
        .land lat ([.coder ls (r.flatMap fun e => e.2.1.out) false, .flags 8 clamped, .ended ended] ++ statusMask w ls) id) s

/-- R253. -/
def execRcenc (w : VWord) (s : State) : Out :=
  encodeEntry2 fRcenc 4 w [w.va.toNat] (fun _ _ => none) (fun k i l =>
    let q := clampQ (laneAt (k.vsrc w.vb.toNat) i)
    (encodeBin ((laneAt (k.csrc w.va.toNat) i).toNat % 2) q.1.toNat l, q.2)) s

/-- R253: an empty table, or a symbol at or above its N, traps with cause 0x39 (R250). -/
def execRcencm (w : VWord) (s : State) : Out :=
  let tab (k : Core) (i : Nat) : Nat := if w.mod = 0 then w.vb.toNat else (laneAt (k.csrc w.vb.toNat) i).toNat % 16
  encodeEntry2 (fRcencm w) 6 w (if w.mod = 0 then [w.va.toNat] else [w.va.toNat, w.vb.toNat])
    (fun k en =>
      if (w.mod = 0 && (k.cdf w.vb.toNat).bank.n = 0) || en.any (fun i => (k.cdf (tab k i)).bank.n = 0 || decide ((k.cdf (tab k i)).bank.n ≤ (laneAt (k.csrc w.va.toNat) i).toNat)) then some 0x39
      else none)
    (fun k i l => (encodeMulti (k.cdf (tab k i)).bank (laneAt (k.csrc w.va.toNat) i).toNat l, false)) s

/-! ### Status and checkpoints (R254, R255) -/

/-- The coder status word (R254). -/
def statusWord (l : CoderLane) : W32 :=
  BitVec.ofNat 32 (l.mode * 2 ^ 30 + (if l.slot1.valid then 2 ^ 29 else 0) + (if l.slot0.valid then 2 ^ 28 else 0)
    + l.low.toNat / 2 ^ 32 * 2 ^ 27 + (if l.hasCache then 2 ^ 26 else 0) + l.cache.toNat * 2 ^ 8 + l.flags.toNat)

/-- Field f of `rcstat` in lane i (R254). -/
def statField (k : Core) (f i : Nat) : W32 :=
  let l := k.lane i
  match f with
  | 0 => statusWord l
  | 1 => l.pos
  | 2 => l.fin
  | 3 => l.count
  | 4 => l.range
  | 5 => l.low.setWidth 32
  | _ =>
    if i < 16 then
      let x := k.cdf i
      BitVec.ofNat 32 ((if x.switch.isSome then 2 ^ 31 else 0) + x.bank.n * 2 ^ 16 + x.bank.version)
    else 0

/-- R254. -/
def execRcstat (w : VWord) (s : State) : Out :=
  coderEntry fRcstat w (fun s =>
    let k := s.me
    .land 2 [k.vdest w.vd.toNat (k.v.mask w.mask.toNat) (mkLanes (statField k w.mod.toNat)), .coder [] [] false] id) s

/-- R255: what a checkpoint holds. -/
def checkpoint (l : CoderLane) : CkSlot :=
  { valid := true, mode := l.mode, low := l.low, range := l.range, cache := l.cache, hasCache := l.hasCache, pending := l.pending
    pos := l.pos, count := l.count, base := l.base, cap := l.cap, flags := l.flags &&& 7#4 }

/-- R255. -/
def execRckpt (w : VWord) (s : State) : Out :=
  coderEntry fCkpt w (fun s =>
    let k := s.me
    let ls := (enabledLanes k w).map fun i =>
      let l := k.lane i
      (i, if w.mod = 0 then { l with slot0 := checkpoint l } else { l with slot1 := checkpoint l })
    .land 2 [.coder ls [] false] id) s

/-- R255: the slot must be VALID and have recorded the lane's mode (R250). -/
def execRcroll (w : VWord) (s : State) : Out :=
  coderEntry fCkpt w (fun s =>
    let k := s.me
    let en := enabledLanes k w
    let slot (l : CoderLane) : CkSlot := if w.mod = 0 then l.slot0 else l.slot1
    if en.any fun i => !(slot (k.lane i)).valid || decide ((slot (k.lane i)).mode ≠ (k.lane i).mode) then .trap 0x3F s
    else
      let ls := en.map fun i =>
        let l := k.lane i
        let x := slot l
        (i, { l with low := x.low, range := x.range, cache := x.cache, hasCache := x.hasCache, pending := x.pending, pos := x.pos, count := x.count, base := x.base, cap := x.cap, flags := x.flags ||| (l.flags &&& 8#4) })
      .land 2 [.coder ls [] false] id) s

/-! ### Probability arithmetic (R256) and tables (R246) -/

/-- A q command: each lane's value and whether the clamp changed it, a zero lane of a q register read as 1 among them (R240). -/
def qEntry (form : VForm) (lat : Nat) (w : VWord) (f : W32 → W32 → W32 × Bool) (s : State) : Out :=
  vEntry form w (fun s =>
    let k := s.me
    let a := k.csrc w.va.toNat
    let b := k.csrc w.vb.toNat
    let en := k.v.mask w.mask.toNat
    let zero := zeroReads k w (if form.vb = .src then [w.va.toNat, w.vb.toNat] else [w.va.toNat])
    .land lat [k.vdest w.vd.toNat en (mkLanes fun i => (f (laneAt a i) (laneAt b i)).1), .flags 8 (zero ||| mkMask fun i => en.getLsbD i && (f (laneAt a i) (laneAt b i)).2)] id) s
/-- R256. -/
def execQsq (w : VWord) (s : State) : Out := qEntry fQun 4 w (fun a _ => (BitVec.ofNat 32 (squash a.toInt), false)) s
/-- R256. -/
def execQmov (w : VWord) (s : State) : Out := qEntry fQun 2 w (fun a _ => clampQ a) s
/-- R256. -/
def execQadapt (w : VWord) (s : State) : Out :=
  qEntry fQadapt 2 w (fun a b =>
    let p := (clampQ a).1.toNat
    let sh := w.mod.toNat + 1
    (BitVec.ofNat 32 (if b.getLsbD 0 then p - p / 2 ^ sh else p + (32768 - p) / 2 ^ sh), (clampQ a).2)) s

/-- Strictly increasing. -/
def increasing : List Nat → Bool
  | [] => true
  | [_] => true
  | a :: b :: r => a < b && increasing (b :: r)

/-- R246: loads an image into the inactive bank and switches to it later. It waits for the granules of the header and of c[0] to c[N],
then checks the image. -/
def execCdfsw (w : VWord) (s : State) : Out :=
  vEntry fCdfsw w (fun s =>
    let c := s.cur.1
    let k := s.me
    let t := w.vb.toNat
    let off := (laneAt (k.csrc w.va.toNat) 0).toNat
    let inside (l : List Nat) : List Nat := l.filter (· < coreBytes)
    let f (o n : Nat) := memNat s.mem (coreBase c + off + o) n
    let n := if off + 16 ≤ coreBytes then f 0 2 else 0
    let offs := inside (offsFrom off (18 + 2 * n))
    if (k.cdf t).switch.isSome || !granulesFull s c (inside [off, off + 15]) || !granulesFull s c offs then .hold s
    else
      let tab := (List.range (n + 1)).map fun j => f (16 + 2 * j) 2
      if !baseOk off ∨ n < 2 ∨ 256 < n ∨ f 4 12 ≠ 0 ∨ coreBytes < off + 18 + 2 * n ∨ tab.headD 1 ≠ 0 ∨ tab.getD n 0 ≠ 32768 ∨ !increasing tab then .trap 0x38 s
      else
        let lat := 4 + (18 + 2 * n + 63) / 64
        let bank : CdfBank := ⟨n, f 2 2, tab⟩
        let put (x : CdfSlot) : CdfSlot := { (if x.active = 0 then { x with bank1 := bank } else { x with bank0 := bank }) with switch := some (k.cy + lat) }
        withReads s c offs offs lat [] fun s => s.modMe fun k => { k with v := { k.v with cdf := mapMod CdfSlot.reset t put k.v.cdf } }) s

/-- R246: the new bank becomes active in its landing cycle. -/
def execCdfBankSwitch (core slot : Nat) (s : State) : Out :=
  match ((s.core core).cdf slot).switch with
  | some d =>
    if d ≤ (s.core core).cy then
      .next (s.modV core fun v => { v with cdf := mapMod CdfSlot.reset slot (fun x => { x with active := 1 - x.active, switch := none }) v.cdf })
    else .refused .notEnabled
  | none => .refused .notEnabled

end Sys2Proof.Machine
end

