-- ==== Sys2Proof/Machine/AccessOps.lean ====
section
/-! DEFINITION. What L0, L1 and W share (R258 to R262): conversions, the checks of operand spans, reads and writes of
several places, the progress of an entry, its completion. -/
namespace Sys2Proof.Machine

/-! ### Conversions (R258) -/

/-- Width of an L code and of a W code. -/
def lWidth (code : Nat) : Nat := if code = 0 then 4 else if code = 3 ∨ code = 4 then 1 else 2
def wWidth (code : Nat) : Nat := if code = 0 then 4 else if code = 2 ∨ code = 4 then 1 else 2
/-- Memory to lane. -/
def lConv (code x : Nat) : W32 :=
  match code with
  | 2 => BitVec.ofInt 32 (signedOf 16 x)
  | 4 => BitVec.ofInt 32 (signedOf 8 x)
  | 5 => pk32 1 (unpack f16 x)
  | 6 => pk32 1 (unpack bf16 x)
  | _ => BitVec.ofNat 32 x
/-- Lane to memory, in the mode fixed at issue. -/
def wConv (code mode : Nat) (x : W32) : Nat :=
  match code with
  | 0 => x.toNat
  | 1 => x.toNat % 65536
  | 2 => x.toNat % 256
  | 3 => (BitVec.ofInt 16 (satI 16 x.toInt)).toNat
  | 4 => (BitVec.ofInt 8 (satI 8 x.toInt)).toNat
  | 5 => pack f16 mode (un32 x)
  | _ => pack bf16 mode (un32 x)

/-! ### Operand spans (R260) -/

/-- A memory operand at issue: its lowest and highest byte, the alignment of its elements, whether device memory is
allowed, and whether only device memory is. -/
structure Span where
  lo : Int
  hi : Int
  align : Nat
  device : Bool
  onlyDevice : Bool
  deriving DecidableEq, Repr

def spaceI (x : Int) : Option Space := if x < 0 then none else spaceOf x.toNat
/-- R260: the first failure over the operands, the window before placement before alignment. -/
def spanTrap (l : List Span) : Option Nat :=
  if l.any fun x => (spaceI x.lo).isNone || (spaceI x.hi).isNone then some 0x10
  else if l.any fun x => spaceI x.lo ≠ spaceI x.hi || (!x.device && spaceI x.lo = some .device) || (x.onlyDevice && spaceI x.lo ≠ some .device) then some 0x13
  else if l.any fun x => x.lo.toNat % x.align ≠ 0 then some 0x11
  else none
def span (lo len align : Nat) : Span := ⟨lo, lo + len - 1, align, true, false⟩
def spanNear (lo len align : Nat) : Span := ⟨lo, lo + len - 1, align, false, false⟩
def spanFar (lo len align : Nat) : Span := ⟨lo, lo + len - 1, align, true, true⟩

/-- The leg to the die that holds a virtual device address (R279). -/
def legTo (s : State) (c va : Nat) : Nat := match pureAddr s (s.core c).ctx va false with
  | some pa => legCy (dieOf c) (dieOfPa pa)
  | none => 0
/-- First result and cycles between elements (R279): figures for core, cluster and device memory, the last in pulses (R351). -/
def timeOf (s : State) (c va core cluster device : Nat) : Lat × Nat :=
  match spaceOf va with
  | some .core => (⟨core, 0⟩, 1)
  | some .cluster => (⟨cluster, 0⟩, 2)
  | _ => (⟨0, device + legTo s c va⟩, 2)

/-! ### Reads and writes of several places -/

/-- A range of bytes cut at sector bounds, into accesses of at most 64 bytes. -/
def pieces (va n : Nat) : Nat → List (Nat × Nat)
  | 0 => []
  | f + 1 =>
    if n = 0 then []
    else
      let m := min n (64 - va % 64)
      (va, m) :: pieces (va + m) (n - m) f
def piecesOf (va n : Nat) : List (Nat × Nat) := pieces va n (n / 64 + 2)

/-- Reads places in order; each sector is checked once. -/
def readList (s : State) (w : Who) (cls : Nat) (done : List Nat) : List (Nat × Nat) → Got (List Nat)
  | [] => .ok [] s
  | (va, n) :: r =>
    (place s w va false false).bind fun p s =>
      if watermarkStall s w p.pa n then .stall (stallMark s w p.pa n)
      else if rangePoisoned s p.pa n then .trap (poisonCause p.pa) none s
      else
        (if p.relax || done.contains (p.pa / 64) then .ok () s else raceCheck s w va p.pa cls false).bind fun _ s =>
          (readList s w cls (p.pa / 64 :: done) r).bind fun l s => .ok (memNat s.mem p.pa n :: l) s

/-- Writes places in order: address, bytes, value. `open_` names the granules that the entry may yet write again (R76). -/
def writeList (s : State) (w : Who) (cls : Nat) (open_ : Nat → Bool) (done : List Nat) : List (Nat × Nat × Nat) → Got Unit
  | [] => .ok () s
  | (va, n, v) :: r =>
    (place s w va true false).bind fun p s =>
      if watermarkStall s w p.pa n then .stall (stallMark s w p.pa n)
      else
        (if p.relax || done.contains (p.pa / 64) then .ok () s else raceCheck s w va p.pa cls true).bind fun _ s =>
          let s := shadowWrite (pokeBytes s w p.pa (natBytes v n) false) w p.pa cls false p.relax
          let s := setFullRange s p.pa n open_ (some (relOf w.id (raceGet s w)))
          writeList s w cls open_ (p.pa / 64 :: done) r

/-- A range of bytes as one number, little-endian. -/
def joinNat : List (Nat × Nat) → Nat
  | [] => 0
  | (v, n) :: r => v + 256 ^ n * joinNat r
def readRange (s : State) (w : Who) (cls va n : Nat) : Got Nat :=
  let ps := piecesOf va n
  (readList s w cls [] ps).bind fun l s => .ok (joinNat (l.zip (ps.map (·.2)))) s
/-- The granule in which a range goes on beyond the bytes now written, when it does (R76). -/
def openEnd (stop last a : Nat) : Bool := stop < last && stop % 16 ≠ 0 && granNo stop = a
/-- Writes a range of bytes from one number: part of a contiguous range that ends at `last`. -/
def writePart (s : State) (w : Who) (cls va n last v : Nat) : Got Unit :=
  writeList s w cls (openEnd (va + n) last) [] ((piecesOf va n).map fun p => (p.1, p.2, v / 256 ^ (p.1 - va)))
def writeRange (s : State) (w : Who) (cls va n v : Nat) : Got Unit := writePart s w cls va n (va + n) v

/-- A header read at issue, before the entry has popped its tokens: translated, refused on poison, stalled by a
watermark; its race check follows once the tokens are popped (R106). -/
def peekRange (s : State) (w : Who) (va n : Nat) : Got Nat :=
  (place s w va false false).bind fun p s =>
    if watermarkStall s w p.pa n then .stall (stallMark s w p.pa n)
    else if rangePoisoned s p.pa n then .trap (poisonCause p.pa) none s
    else .ok (memNat s.mem p.pa n) s

/-! ### Engines that stop, wait and complete -/

/-- An engine's next access, or its next entry, comes 6 cycles later (R358). -/
def engineLater (s : State) (c e : Nat) : State :=
  match mapFind e (s.core c).run with
  | some r =>
    let r := match r.pend with
      | (due, d) :: rest => { r with pend := (⟨due.dom, s.now + 6⟩, d) :: rest }
      | [] => { r with far := s.now + 6 }
    s.modCore c fun k => { k with run := mapSet e r k.run }
  | none => s.modEng c e fun g => { g with next := (s.core c).cy + 6 }

/-- What an engine does about an address that its core's table lacks (R358): its cluster's table gives it in 6 cycles, else it waits for a walk. -/
def engineMiss (s : State) (c e va : Nat) (write fetch : Bool) : State :=
  let u := whoCore s c e
  if clusterOnly s u va then engineLater (refill s u va) c e
  else (startWalk s u va write fetch (c, e)).modEng c e fun g => { g with stop := .walk }

/-- An engine's access ends its step with a trap, a stall, or a walk to wait for (R171, R260, R358, R360). -/
def engineGot {α : Type} (s0 : State) (c e : Nat) (g : Got α) (f : α → State → State) : State :=
  match g with
  | .ok a s => f a s
  | .trap cause info s => trapEngine s c e cause info
  | .stall m => noteStall s0 m
  | .miss va w x => engineMiss s0 c e va w x

def Core.runOf (k : Core) (e : Nat) : Option Run := mapFind e k.run
def setRun (s : State) (c e : Nat) (r : Run) : State := s.modCore c fun k => { k with run := mapSet e r k.run }

/-- Sets the full-empty bits that an engine's entry has held open, for the granules of a list (R76). -/
def closeGrans (s : State) (c e : Nat) (l : List Nat) : State :=
  l.foldl (fun s g => setFull s (coreBase c / 16 + g) (some (releaseOf s c e))) s

/-- An entry of n words completes (R18, R261, R262): its progress register clears and the head moves past it. -/
def finishEntry (s : State) (c e n : Nat) (signal : BitVec 8) : State :=
  let s := s.modCore c fun k => { k with run := mapDel e k.run, prog := mapDel e k.prog }
  let cy := (s.core c).cy
  let s := completeEntry (advanceHead s c e n) c e signal
  s.modEng c e fun g => { g with next := cy + 1 }

/-- What a command's own rule gives in its issue cycle. -/
inductive Prep where
  /-- Starts: the time to the first result, kept values, and the header that is then read under the race check. -/
  | go (first : Lat) (vals : List Nat) (hdr : List (Nat × Nat))
  | trap (cause : Nat)
  | hold (m : Option StallMark)
  | miss (va : Nat)

/-- What a read at issue gives. -/
def Got.prep {α : Type} (g : Got α) (f : α → Prep) : Prep :=
  match g with
  | .ok a _ => f a
  | .trap cause _ _ => .trap cause
  | .stall m => .hold m
  | .miss va _ _ => .miss va

/-! ### Packed and codebook headers (R93, R95) -/

/-- A bitmask-and-values header (R93) and what follows from it. -/
structure PackHeader where
  len : Nat
  nnz : Nat
  cap : Nat
  fmt : Nat
  flags : Nat
  deriving DecidableEq, Repr
def packHeader (h : Nat) : PackHeader := ⟨h % 2 ^ 32, h / 2 ^ 32 % 2 ^ 32, h / 2 ^ 64 % 2 ^ 32, h / 2 ^ 96 % 256, h / 2 ^ 104⟩
def PackHeader.w (h : PackHeader) : Nat := (elemBytes h.fmt).getD 1
def PackHeader.mb (h : PackHeader) : Nat := (h.len + 127) / 128 * 16
def PackHeader.body (h : PackHeader) : Nat := h.mb + (h.cap * h.w + 15) / 16 * 16
def PackHeader.slot (h : PackHeader) : Nat := h.flags / 2 % 2
/-- The bytes of the structure up to the last that a command touches (R260, R270): in a body, bytes of the mask, and up to n values. -/
def PackHeader.reach (h : PackHeader) (slot mask n : Nat) : Nat :=
  if h.len = 0 then 16 else 16 + slot * h.body + if n = 0 then mask else h.mb + h.w * min n h.len
/-- Those of a reload: it reads the body in use. -/
def PackHeader.loads (h : PackHeader) : Nat := h.reach h.slot ((h.len + 7) / 8) h.nnz
/-- Those of a store: it writes the free body, whose mask goes by words of 64 bits, with up to CAP values. DEDUCED (log entry 39): how many values its
elements hold is not known at issue, and those that they may hold count as touched. -/
def PackHeader.stores (h : PackHeader) : Nat := h.reach (1 - h.slot) (8 * ((h.len + 63) / 64)) h.cap
/-- R270: the LEN, the FORMAT and the reserved bits. -/
def PackHeader.ok (h : PackHeader) (len : Nat) : Bool := h.len = len && 1 ≤ h.fmt && h.fmt ≤ 9 && h.flags < 4

/-- A codebook header (R95). -/
structure BookHeader where
  len : Nat
  w : Nat
  fmt : Nat
  glog : Nat
  toff : Nat
  rest : Nat
  deriving DecidableEq, Repr
def bookHeader (h : Nat) : BookHeader := ⟨h % 2 ^ 32, h / 2 ^ 32 % 256, h / 2 ^ 40 % 256, h / 2 ^ 48 % 65536, h / 2 ^ 64 % 2 ^ 32, h / 2 ^ 96⟩
/-- A header that `lcbtab` and `lcbx` take (R95). DESIGN CHOICE (log entry 59): a width outside 1 to 8 and reserved bits that are not zero
trap like the fields that R95 names. -/
def BookHeader.ok (h : BookHeader) : Bool :=
  1 ≤ h.w && h.w ≤ 8 && 7 ≤ h.fmt && h.fmt ≤ 9 && 5 ≤ h.glog && h.glog ≤ 12 && h.toff % 16 = 0
    && 16 + (h.len * h.w + 127) / 128 * 16 ≤ h.toff && h.rest = 0
/-- Bytes of a table entry. -/
def BookHeader.e (h : BookHeader) : Nat := if h.fmt = 9 then 4 else 2

/-- A 16-bit float bit pattern as a lane, widened or not (R269, R270). -/
def widen16 (fmt wd : Nat) (x : Nat) : W32 :=
  if wd = 1 && fmt = 7 then pk32 1 (unpack f16 x) else if wd = 1 && fmt = 8 then pk32 1 (unpack bf16 x) else BitVec.ofNat 32 x

/-! ### The place of an entry that has stopped (R261, R311) -/

/-- Elements a run word skips and selects (R265). -/
def runSkip (x : Nat) : Nat := x / 256
def runSel (x : Nat) : Nat := x % 256

/-- Run words from a physical address, as the memory stands. -/
def runWords (m : List Host.Cell) (pa n : Nat) : List Nat := (List.range n).map fun i => memNat m (pa + 2 * i) 2

/-- The elements that run words select from a position on, and the position after them. -/
def runSelect (pos : Nat) : List Nat → List Nat × Nat
  | [] => ([], pos)
  | x :: r =>
    let a := pos + runSkip x
    let (l, p) := runSelect (a + runSel x) r
    ((List.range (runSel x)).map (a + ·) ++ l, p)

/-- Physical address of a byte of core or cluster memory. -/
def nearPa (w : Who) (va : Nat) : Nat :=
  match spaceOf va with
  | some .core => coreBase w.core + (va - 0x000FFFFFFFF80000)
  | _ => clusterBase w.cluster + (va - 0x000FFFFFFF000000)

/-- The free body of a packed store (R93, R94). -/
def freeBody (r : Run) (x1 x2 : BitVec 56) : PackHeader × Nat :=
  let h : PackHeader := ⟨payF x2 31 0, 0, r.vals.getD 0 0, r.vals.getD 1 1, r.vals.getD 2 0⟩
  (h, payAddr x1 + 16 + (1 - h.slot) * h.body)

/-- How many of the first n bits are set. -/
def bitCount (x n : Nat) : Nat := ((List.range n).filter fun i => x.testBit i).length

/-- What an entry carries along beside its progress register, read back from memory for the place that the register names: the position
of a run-length gather, the values behind a mask, the values a packed store has written (R311). Blocks of a beam map are started
anew. -/
def settleRun (s : State) (c e : Nat) (r : Run) : Run :=
  let u := whoCore s c e
  match r.ins with
  | .lgathRl _ _ x2 _ => { r with vals := [(runSelect 0 (runWords s.mem (nearPa u (payAddr x2)) r.metaPos)).2] }
  | .lpkld _ _ _ => { r with vals := r.vals.take 5 ++ [bitCount (memNat s.mem (nearPa u (r.vals.getD 3 0)) (8 * r.elem)) (64 * r.elem)] }
  | .lbmg _ _ _ _ => { r with vals := r.vals.take 2 }
  | .wpkst _ x1 x2 =>
    if r.metaPos = 1 then r
    else { r with vals := r.vals.take 3 ++ [bitCount (memNat s.mem (nearPa u (freeBody r x1 x2).2) (8 * r.elem)) (64 * r.elem)] ++ r.vals.drop 4 }
  | _ => r
/-- The entries of a core that LOAD has restored. -/
def settleRuns (s : State) (c : Nat) : State := s.modCore c fun k => { k with run := k.run.map fun e => (e.1, settleRun s c e.1 e.2) }

/-- The class of a header read (R266): the class field of `lbmg` applies to its block reads only. -/
def headerClass (ins : Instr) (w : EWord) : Nat :=
  match ins with
  | .lbmg _ _ _ _ => 0
  | _ => w.cls.toNat

/-- Issue of an access entry of n words (R171, R213's conditions for tokens, R260): `prep` is the command's own part. A part-done entry
of a restored area goes on from its progress register, with no check and no wait repeated (R261, R363). -/
def accessEntry (ins : Instr) (w : EWord) (n : Nat) (ok : Bool) (round : RF) (prep : State → Nat → Nat → Prep) (s : State) : Out :=
  let c := s.cur.1
  let e := s.cur.2
  let at_ := mapFind e s.me.prog
  match (if at_.isSome then none else eFault e w ok round) with
  | some cause => .next (trapEngine s c e cause none)
  | none =>
    if at_.isNone && !waitReady s.me e w.wait then .next s
    else
      match prep s c e with
      | .hold m => .next (noteStall s m)
      | .trap cause => .next (trapEngine s c e cause none)
      | .miss va => .next (engineMiss s c e va false false)
      | .go first vals hdr =>
        let mode := roundMode s.me e w.round
        let s := if at_.isSome then s.modMe fun k => { k with prog := mapDel e k.prog } else startEntry s c e n w.wait
        let r : Run := { ins := ins, next := ((s.core c).after s.now first).dom, far := ((s.core c).after s.now first).far, elem := (at_.getD (0, 0)).1, metaPos := (at_.getD (0, 0)).2, vals := vals, mode := mode, pend := [], part := [] }
        let s := setRun s c e (if at_.isSome then settleRun s c e r else r)
        .next (engineGot s c e (readList s (whoCore s c e) (headerClass ins w) [] hdr) fun _ s => s)

/-- A `setrm` or `enop` of a format E engine: it completes at issue (R63, R168). -/
def plainEntry (w : EWord) (round : RF) (f : State → State) (s : State) : Out :=
  let c := s.cur.1
  let e := s.cur.2
  match eFault e w (okPlain w) round with
  | some cause => .next (trapEngine s c e cause none)
  | none => .next (if waitReady s.me e w.wait then finishEntry (f (startEntry s c e 1 w.wait)) c e 1 w.signal else s)

/-! ### Streams (R263) -/

/-- Element i of a box, in elements from the base. -/
def boxOffset (i : Nat) : List Nat → List Int → Int
  | n :: ns, s :: ss => (i % n : Nat) * s + boxOffset (i / n) ns ss
  | _, _ => 0
/-- Lowest and highest element of a box. -/
def boxSpan (ns : List Nat) (ss : List Int) : Int × Int :=
  (ns.zip ss).foldl (fun (a : Int × Int) e =>
    let d := ((e.1 : Int) - 1) * e.2
    if d < 0 then (a.1 + d, a.2) else (a.1, a.2 + d)) (0, 0)
/-- The addresses of the lanes of stream element k. -/
def boxLanes (base w k : Nat) (ns : List Nat) (ss : List Int) : List Nat :=
  let total := ns.foldl (· * ·) 1
  (List.range (min 64 (total - 64 * k))).map fun i => ((base : Int) + w * boxOffset (64 * k + i) ns ss).toNat
/-- The data-queue elements of n stream elements. -/
def elemsOf (n : Nat) : Nat := (n + 63) / 64

end Sys2Proof.Machine
end

