-- ==== Sys2Proof/Machine/Access.lean ====
section
/-! DEFINITION. The meanings of the commands of L0 and L1 (R262 to R270), and the steps in which they push elements and
fill expansion banks. -/
namespace Sys2Proof.Machine

/-! ### Issue -/

/-- An L command that pushes into a data queue: the queue must be one of the engine's (R21). -/
def lEntry (ins : Instr) (w : EWord) (n : Nat) (ok : Bool) (prep : State → Nat → Nat → Prep) (s : State) : Out :=
  accessEntry ins w n ok .zero (fun s c e => if argF w 39 37 / 4 ≠ e - 1 then .trap 0x23 else prep s c e) s

/-- R168. -/
def execLEnop (w : EWord) (s : State) : Out := plainEntry w .zero id s

/-- R263, R262: a box of elements, with `.w` only in core memory. -/
def execLstrm (w : EWord) (x1 x2 x3 : BitVec 56) (s : State) : Out :=
  lEntry (.lstrm w x1 x2 x3) w 4 (okLstrm w x1 x2 x3) (fun s c _ =>
    let wd := lWidth (argF w 36 33)
    let base := payAddr x1
    let (lo, hi) := boxSpan (boxExtents x2) (boxStrides x3)
    match spanTrap [⟨base + wd * lo, base + wd * hi + wd - 1, wd, true, false⟩] with
    | some cause => .trap cause
    | none =>
      if w.mod = 1 && spaceOf base ≠ some .core then .trap 0x12
      else .go (timeOf s c base 6 20 180).1 [] []) s

/-- The checks of a gather (R260): the span of the elements that its list selects, as the memory stands, and of the list. -/
def gatherTrap (src wd lst len align : Nat) (sel : List Nat) : Option Nat :=
  if (spanTrap [spanNear lst len 1]).isSome then spanTrap [spanNear src wd wd, spanNear lst len align]
  else
    spanTrap ((match sel.head?, sel.getLast? with
      | some a, some b => [spanNear (src + wd * a) (wd * (b + 1 - a)) wd]
      | _, _ => []) ++ [spanNear lst len align])

/-- The issue of a gather (R260, R265): its list is read for the check, so a watermark over it holds the entry (R90). -/
def gatherPrep (s : State) (w : Who) (src wd lst len align : Nat) (sel vals : List Nat) : Prep :=
  if (spanTrap [spanNear lst len 1]).isNone && watermarkStall s w (nearPa w lst) len then .hold (stallMark s w (nearPa w lst) len)
  else
    match gatherTrap src wd lst len align sel with
    | some cause => .trap cause
    | none => .go ⟨6, 0⟩ vals []

/-- R265, bitmap form. -/
def execLgathBm (w : EWord) (x1 x2 x3 : BitVec 56) (s : State) : Out :=
  lEntry (.lgathBm w x1 x2 x3) w 4 (okLgath w x1 x2 x3) (fun s c e =>
    let n := (argF w 32 30 + 1) * payF x3 23 0
    let bits := memNat s.mem (nearPa (whoCore s c e) (payAddr x2)) (8 * n)
    gatherPrep s (whoCore s c e) (payAddr x1) (lWidth (argF w 36 33)) (payAddr x2) (8 * n) 1 ((List.range (64 * n)).filter fun i => bits.testBit i) []) s

/-- R265, run form. -/
def execLgathRl (w : EWord) (x1 x2 x3 : BitVec 56) (s : State) : Out :=
  lEntry (.lgathRl w x1 x2 x3) w 4 (okLgath w x1 x2 x3) (fun s c e =>
    let n := (argF w 32 30 + 1) * payF x3 23 0
    let sel := (runSelect 0 (runWords s.mem (nearPa (whoCore s c e) (payAddr x2)) n)).1
    gatherPrep s (whoCore s c e) (payAddr x1) (lWidth (argF w 36 33)) (payAddr x2) (2 * n) 2 sel [0]) s

/-- The place of the entry of block lblk + b of an `lbmg` (R96, R266). -/
def bmgEntry (x1 x2 : BitVec 56) (nbeam nlblk b : Nat) : Nat :=
  payAddr x1 + bmOffset ⟨0, nbeam, nlblk⟩ (bmSeq (payF x2 43 0)) (bmBeam (payF x2 43 0)) (bmLblk (payF x2 43 0) + b)

/-- R266: the beam map's header is read and the index checked at issue, then the entries it will read. The first result takes the leg of
the first block (R279). -/
def execLbmg (w : EWord) (x1 x2 x3 : BitVec 56) (s : State) : Out :=
  lEntry (.lbmg w x1 x2 x3) w 4 (okLbmg w x1 x2 x3) (fun s c e =>
    let wd := lWidth (argF w 36 33)
    let map := payAddr x1
    match spanTrap [spanFar map 16 16] with
    | some cause => .trap cause
    | none =>
      (peekRange s (whoCore s c e) map 16).prep fun h =>
        let h : BmHeader := ⟨h % 65536, h / 65536 % 65536, h / 2 ^ 32 % 65536⟩
        let i := payF x2 43 0
        let off := payF x3 15 0
        let len := payF x3 31 16 + 1
        let nb := payF x3 47 32 + 1
        let first := bmgEntry x1 x2 h.nbeam h.nlblk 0
        if 65536 < off + len ∨ off % wd ≠ 0 ∨ len % wd ≠ 0 ∨ !bmIndexOk h i ∨ h.nlblk < bmLblk i + nb then .trap 0x17
        else
          match spanTrap [⟨map, first + 8 * nb - 1, 16, true, true⟩] with
          | some cause => .trap cause
          | none =>
            let ent := (pureAddr s s.me.ctx first false).elim 0 fun pa => memNat s.mem pa 8
            .go (timeOf s c (ent % 2 ^ 36 * 65536) 180 180 180).1 [h.nbeam, h.nlblk] [(map, 16)]) s

/-- R268: waits while the bank is FULL; a bank cleared in this cycle is taken in the next (R307). -/
def execLcbtab (w : EWord) (x1 : BitVec 56) (s : State) : Out :=
  accessEntry (.lcbtab w x1) w 2 (okLcbtab w x1) .zero (fun s c e =>
    let b := mapGet XtBank.reset (argF w 39 36) (s.core c).xt
    let cb := payAddr x1
    if b.full || b.clearedAt = (s.core c).cy + 1 then .hold none
    else
      match spanTrap [spanNear cb 16 1] with
      | some cause => .trap cause
      | none =>
        (peekRange s (whoCore s c e) cb 16).prep fun x =>
          let h := bookHeader x
          let blk := argF w 35 12
          if !h.ok || decide ((h.len + 2 ^ h.glog - 1) / 2 ^ h.glog ≤ blk) then .trap 0x37
          else
            let n := 2 ^ h.w
            let ta := h.toff + blk * n * h.e
            match spanTrap [spanNear cb (ta + n * h.e) 1] with
            | some cause => .trap cause
            | none => .go ⟨8 + (n * h.e + 63) / 64, 0⟩ [blk, h.fmt, n, cb + ta] [(cb, 16)]) s

/-- R269: the codebook's header is read and checked at issue. -/
def execLcbx (w : EWord) (x1 x2 : BitVec 56) (s : State) : Out :=
  lEntry (.lcbx w x1 x2) w 3 (okLcbx w x1) (fun s c e =>
    let cb := payAddr x1
    match spanTrap [spanNear cb 16 1] with
    | some cause => .trap cause
    | none =>
      (peekRange s (whoCore s c e) cb 16).prep fun x =>
        let h := bookHeader x
        let i0 := payF x2 31 0
        let ni := payF x2 55 32 + 1
        if !h.ok then .trap 0x37
        else if (argF w 32 29 + 1) * 2 ^ h.glog < 64 then .trap 0x02
        else if h.len < i0 + ni then .trap 0x37
        else
          match spanTrap [spanNear cb (16 + ((i0 + ni) * h.w + 7) / 8) 1] with
          | some cause => .trap cause
          | none => .go (timeOf s c cb 6 20 20).1 [h.w, h.glog, h.fmt, h.len] [(cb, 16)]) s

/-- R270: the packed structure's header is read and checked at issue. -/
def execLpkld (w : EWord) (x1 x2 : BitVec 56) (s : State) : Out :=
  lEntry (.lpkld w x1 x2) w 3 (okLpkld w x1 x2) (fun s c e =>
    let pk := payAddr x1
    match spanTrap [spanNear pk 16 1] with
    | some cause => .trap cause
    | none =>
      (peekRange s (whoCore s c e) pk 16).prep fun x =>
        let h := packHeader x
        if !h.ok (payF x2 31 0) then .trap 0x37
        else if h.flags % 2 = 1 then .trap 0x36
        else
          match spanTrap [spanNear pk h.loads 1] with
          | some cause => .trap cause
          | none => .go (timeOf s c pk 6 20 20).1 [h.fmt, h.nnz, h.len, pk + 16 + h.slot * h.body, pk + 16 + h.slot * h.body + h.mb, 0] [(pk, 16)]) s

/-! ### One element (R262 to R270) -/

/-- An element of an L entry: its lanes and the entry's progress after it. -/
abbrev LElem := Got (Lanes × Run)

/-- The 64 lanes of an element; lanes beyond the stream read zero. -/
def padLanes (l : List W32) : Lanes := mkLanes fun i => l.getD i 0

/-- R263; with `.w` each granule must be full, and is acquired (R262). -/
def elemLstrm (s : State) (c e : Nat) (r : Run) (w : EWord) (x1 x2 x3 : BitVec 56) : LElem :=
  let code := argF w 36 33
  let addrs := boxLanes (payAddr x1) (lWidth code) r.elem (boxExtents x2) (boxStrides x3)
  let grans := (addrs.map fun a => granKey c (a - 0x000FFFFFFFF80000)).eraseDups
  if w.mod = 1 && grans.any fun g => !isFull s g then .stall none
  else
    let s := if w.mod = 1 then grans.foldl (fun s g => match (mapFind g s.full).getD none with
        | some x => acquireBy s c e 0 x
        | none => s) s else s
    (readList s (whoCore s c e) w.cls.toNat [] (addrs.map fun a => (a, lWidth code))).bind fun l s =>
      .ok (padLanes (l.map (lConv code)), r) s

/-- The places and lanes of a gather's selected elements. -/
def gatherRead (s : State) (c e : Nat) (r : Run) (w : EWord) (base : Nat) (idx : List Nat) : LElem :=
  let code := argF w 36 33
  if 64 < idx.length then .trap 0x28 none s
  else
    (readList s (whoCore s c e) w.cls.toNat [] (idx.map fun i => (base + lWidth code * i, lWidth code))).bind fun l s =>
      .ok (padLanes (l.map (lConv code)), r) s

/-- R265, bitmap form: window v. -/
def elemLgathBm (s : State) (c e : Nat) (r : Run) (w : EWord) (x1 x2 : BitVec 56) : LElem :=
  let k := argF w 32 30 + 1
  (readRange s (whoCore s c e) w.cls.toNat (payAddr x2 + 8 * k * r.elem) (8 * k)).bind fun bits s =>
    let sel := (List.range (64 * k)).filter fun i => bits.testBit i
    gatherRead s c e { r with metaPos := r.metaPos + 1 } w (payAddr x1) (sel.map (64 * k * r.elem + ·))

/-- R265, run form: the next k run words. -/
def elemLgathRl (s : State) (c e : Nat) (r : Run) (w : EWord) (x1 x2 : BitVec 56) : LElem :=
  let k := argF w 32 30 + 1
  (readRange s (whoCore s c e) w.cls.toNat (payAddr x2 + 2 * k * r.elem) (2 * k)).bind fun words s =>
    let (sel, p) := runSelect (r.vals.headD 0) ((List.range k).map fun i => words / 2 ^ (16 * i) % 65536)
    gatherRead s c e { r with metaPos := r.metaPos + k, vals := [p] } w (payAddr x1) sel

/-- What an `lbmg` keeps of a block it has started: the entry as read at the start, and whether the block has been dropped (R368). -/
def bmgBlock (r : Run) (b : Nat) : Option (Nat × Bool) := ((r.vals.drop 2).find? fun x => x / 2 ^ 65 = b).map fun x => (x % 2 ^ 64, x.testBit 64)
def bmgKeep (r : Run) (b ent : Nat) (dropped : Bool) : Run :=
  { r with metaPos := max r.metaPos (b + 1), vals := r.vals.take 2 ++ ((r.vals.drop 2).filter fun x => x / 2 ^ 65 ≠ b) ++ [ent + (if dropped then 2 ^ 64 else 0) + 2 ^ 65 * b] }

/-- R266: the entry of a block is read once, when the block is started, as any other read of the engine (R111). -/
def bmgStart (s : State) (c e : Nat) (r : Run) (x1 x2 : BitVec 56) (b : Nat) : Got Run :=
  if (bmgBlock r b).isSome then .ok r s
  else
    (readRange s (whoCore s c e) 0 (bmgEntry x1 x2 (r.vals.getD 0 0) (r.vals.getD 1 0) b) 8).bind fun ent s =>
      if ent / 2 ^ 63 = 0 then .trap 0x16 none s else .ok (bmgKeep r b ent false) s

/-- R368: a poisoned block is dropped, its entry's VALID cleared by one compare-and-swap and an event written; a
committed one traps. -/
def bmgDrop (s : State) (c e : Nat) (r : Run) (x1 x2 : BitVec 56) (b va : Nat) : Got Run :=
  let u := whoCore s c e
  let ent := ((bmgBlock r b).map (·.1)).getD 0
  if ent.testBit 62 then .trap 0x52 none s
  else
    (place s u (bmgEntry x1 x2 (r.vals.getD 0 0) (r.vals.getD 1 0) b) true false).bind fun p s =>
      if watermarkStall s u p.pa 8 then .stall (stallMark s u p.pa 8)
      else
      let s := if memNat s.mem p.pa 8 = ent then pokeBytes s u p.pa (natBytes (ent % 2 ^ 63) 8) true else s
      .ok (bmgKeep r b ent true) (postEvent s (dieOf c) c e 0x56 u.ctx 2 (BitVec.ofNat 64 va) (BitVec.ofNat 64 (payF x2 43 0 + b)))

/-- One lane's read of a block: none where its bytes are poisoned. `chk` holds the sectors that the element has checked. -/
def bmgRead (s : State) (c e : Nat) (w : EWord) (chk : List Nat) (va : Nat) : Got (Option (W32 × Nat)) :=
  let u := whoCore s c e
  let code := argF w 36 33
  (place s u va false false).bind fun p s =>
    if watermarkStall s u p.pa (lWidth code) then .stall (stallMark s u p.pa (lWidth code))
    else if rangePoisoned s p.pa (lWidth code) then .ok none s
    else
      (if p.relax || chk.contains (p.pa / 64) then .ok () s else raceCheck s u va p.pa w.cls.toNat false).bind fun _ s =>
        .ok (some (lConv code (memNat s.mem p.pa (lWidth code)), p.pa / 64)) s

/-- R266: the lanes of a stream element, block by block: the state and the progress that stay whatever comes of the element, and its
lanes. -/
def bmgLanes (c e : Nat) (w : EWord) (x1 x2 x3 : BitVec 56) (chk : List Nat) : List Nat → State → Run → State × Run × Got (List W32)
  | [], s, r => (s, r, .ok [] s)
  | i :: rest, s, r =>
    let len := payF x3 31 16 + 1
    let b := i * lWidth (argF w 36 33) / len
    let cons (x : W32) (y : State × Run × Got (List W32)) : State × Run × Got (List W32) := (y.1, y.2.1, y.2.2.bind fun l s => .ok (x :: l) s)
    match bmgStart s c e r x1 x2 b with
    | .ok r s =>
      let k := (bmgBlock r b).getD (0, false)
      let va := k.1 % 2 ^ 36 * 65536 + payF x3 15 0 + i * lWidth (argF w 36 33) % len
      if k.2 then cons 0 (bmgLanes c e w x1 x2 x3 chk rest s r)
      else
        match bmgRead s c e w chk va with
        | .ok (some x) s => cons x.1 (bmgLanes c e w x1 x2 x3 (x.2 :: chk) rest s r)
        | .ok none s =>
          (match bmgDrop s c e r x1 x2 b va with
          | .ok r s => cons 0 (bmgLanes c e w x1 x2 x3 chk rest s r)
          | g => (s, r, g.bind fun _ s => .ok [] s))
        | g => (s, r, g.bind fun _ s => .ok [] s)
    | g => (s, r, g.bind fun _ s => .ok [] s)

/-- Elements of an `lbmg` stream. -/
def bmgTotal (w : EWord) (x3 : BitVec 56) : Nat := (payF x3 31 16 + 1) * (payF x3 47 32 + 1) / lWidth (argF w 36 33)
/-- R266: the blocks that an element has started stay started when it does not get through. Blocks behind it are forgotten, and every lane
of a block dropped in this element is zero (R368). -/
def elemLbmg (s : State) (c e : Nat) (r : Run) (w : EWord) (x1 x2 x3 : BitVec 56) : State × LElem :=
  let idx := (List.range (min 64 (bmgTotal w x3 - 64 * r.elem))).map (64 * r.elem + ·)
  let (s, r, g) := bmgLanes c e w x1 x2 x3 [] idx s r
  let dropped (i : Nat) : Bool := ((bmgBlock r (i * lWidth (argF w 36 33) / (payF x3 31 16 + 1))).map (·.2)).getD false
  let next := 64 * (r.elem + 1) * lWidth (argF w 36 33) / (payF x3 31 16 + 1)
  (setRun s c e r, match g with
    | .trap cause info t => .trap cause info (setRun t c e r)
    | g => g.bind fun l s => .ok (padLanes ((idx.zip l).map fun x => if dropped x.1 then 0 else x.2), { r with vals := r.vals.take 2 ++ (r.vals.drop 2).filter fun x => next ≤ x / 2 ^ 65 }) s)

/-- R269: an element of an expansion. The banks its lanes use must be FULL with the blocks they need; the bank whose
block ends with this element is cleared. -/
def elemLcbx (s : State) (c e : Nat) (r : Run) (w : EWord) (x1 x2 : BitVec 56) : LElem :=
  let k := s.core c
  let wd := r.vals.getD 0 1
  let glog := r.vals.getD 1 5
  let fmt := r.vals.getD 2 7
  let len := r.vals.getD 3 0
  let i0 := payF x2 31 0
  let lo := i0 + 64 * r.elem
  let hi := min (lo + 64) (i0 + (payF x2 55 32 + 1))
  let nb := argF w 32 29 + 1
  let t := argF w 36 33
  let idx := (List.range (hi - lo)).map (lo + ·)
  let blocks := (idx.map (· / 2 ^ glog)).eraseDups
  let bank (b : Nat) : XtBank := mapGet XtBank.reset (t + b % nb) k.xt
  if blocks.any fun b => !(bank b).full || (bank b).blk ≠ b then .stall none
  else if blocks.any fun b => (bank b).format ≠ fmt then .trap 0x37 none s
  else
    let b0 := lo * wd / 8
    (readRange s (whoCore s c e) w.cls.toNat (payAddr x1 + 16 + b0) ((hi * wd + 7) / 8 - b0)).bind fun bits s =>
      let lanes := idx.map fun i =>
        let x := ((bank (i / 2 ^ glog)).entries.getD (bits / 2 ^ (i * wd - 8 * b0) % 2 ^ wd) 0).toNat
        widen16 fmt w.mod.toNat x
      let ended := blocks.filter fun b => decide (min ((b + 1) * 2 ^ glog) len ≤ hi) && decide (lo < min ((b + 1) * 2 ^ glog) len)
      let s := ended.foldl (fun s b => s.modCore c fun k =>
        { k with xt := mapMod XtBank.reset (t + b % nb) (fun x => { x with full := false, clearedAt := k.cy + 1 }) k.xt }) s
      .ok (padLanes lanes, r) s

/-- A stored value as a lane (R270). -/
def unpackValue (fmt wd x : Nat) : W32 :=
  if fmt = 1 then BitVec.ofInt 32 (signedOf 8 x) else if fmt = 3 then BitVec.ofInt 32 (signedOf 16 x) else widen16 fmt wd x

/-- R270, R310: the next 64 elements of a packed body, whose mask word META counts (R261). -/
def elemLpkld (s : State) (c e : Nat) (r : Run) (w : EWord) : LElem :=
  let v (i : Nat) : Nat := r.vals.getD i 0
  let fmt := v 0
  let bytes := (elemBytes fmt).getD 1
  let m := min 64 (v 2 - 64 * r.elem)
  (readRange s (whoCore s c e) w.cls.toNat (v 3 + 8 * r.elem) ((m + 7) / 8)).bind fun mask s =>
    let used := v 5
    let pos (i : Nat) : Nat := used + ((List.range i).filter fun j => mask.testBit j).length
    let present := (List.range m).filter fun i => mask.testBit i && decide (pos i < v 1)
    (readList s (whoCore s c e) w.cls.toNat [] (present.map fun i => (v 4 + bytes * pos i, bytes))).bind fun l s =>
      let vals := present.zip l
      let lane (i : Nat) : W32 := match vals.find? fun x => x.1 = i with
        | some x => unpackValue fmt w.mod.toNat x.2
        | none => 0
      .ok (padLanes ((List.range m).map lane), { r with metaPos := r.metaPos + 1, vals := [v 0, v 1, v 2, v 3, v 4, used + ((List.range m).filter fun i => mask.testBit i).length] }) s

/-! ### The step of an L entry -/

/-- What an L entry under way is: words, wait and signal fields, elements in all, cycles between them, and the next
element. -/
structure LWork where
  words : Nat
  w : EWord
  count : Nat
  rate : Nat
  /-- What a stall or a walk leaves, and the element. -/
  next : State → Nat → Nat → Run → State × LElem

def lWork (s : State) (c : Nat) (r : Run) : Option LWork :=
  match r.ins with
  | .lstrm w x1 x2 x3 => some ⟨4, w, elemsOf ((boxExtents x2).foldl (· * ·) 1), (timeOf s c (payAddr x1) 6 20 180).2, fun s c e r => (s, elemLstrm s c e r w x1 x2 x3)⟩
  | .lgathBm w x1 x2 x3 => some ⟨4, w, payF x3 23 0, argF w 29 27 + 1, fun s c e r => (s, elemLgathBm s c e r w x1 x2)⟩
  | .lgathRl w x1 x2 x3 => some ⟨4, w, payF x3 23 0, argF w 29 27 + 1, fun s c e r => (s, elemLgathRl s c e r w x1 x2)⟩
  | .lbmg w x1 x2 x3 => some ⟨4, w, elemsOf (bmgTotal w x3), 2, fun s c e r => elemLbmg s c e r w x1 x2 x3⟩
  | .lcbx w x1 x2 => some ⟨3, w, elemsOf (payF x2 55 32 + 1), (timeOf s c (payAddr x1) 6 20 20).2, fun s c e r => (s, elemLcbx s c e r w x1 x2)⟩
  | .lpkld w x1 x2 => some ⟨3, w, elemsOf (payF x2 31 0), (timeOf s c (payAddr x1) 6 20 20).2, fun s c e r => (s, elemLpkld s c e r w)⟩
  | _ => none

/-- R262: an L entry pushes its next element once its data and the queue's room are there, and completes with its last
one. -/
def execDqElementPush (core eng : Nat) (s : State) : Out :=
  match (s.core core).runOf eng with
  | none => .refused .notEnabled
  | some r =>
    match lWork s core r with
    | none => .refused .notEnabled
    | some l =>
      let cy := (s.core core).cy
      if cy < r.next ∨ s.now < r.far ∨ ((s.core core).engine eng).stop ≠ .run then .refused .notEnabled
      else if l.count ≤ r.elem then .next (finishEntry s core eng l.words l.w.signal)
      else
        let q := argF l.w 39 37
        if 8 ≤ (mapGet [] q (s.core core).q.dq).length then .refused .notEnabled
        else
          let x := l.next s core eng r
          .next (engineGot x.1 core eng x.2 fun x s =>
            let s := progress (s.modQ core fun u => { u with dq := mapMod [] q (· ++ [⟨x.1, cy⟩]) u.dq }) core
            let r := { x.2 with elem := r.elem + 1, next := cy + l.rate }
            if l.count ≤ r.elem then finishEntry s core eng l.words l.w.signal else setRun s core eng r)

/-- R268: the last table entry lands, and the bank becomes FULL. -/
def execXtBankFull (core bank : Nat) (s : State) : Out :=
  let find (e : Nat) : Option (Nat × Run × EWord) :=
    match (s.core core).runOf e with
    | some r => match r.ins with
      | .lcbtab w _ => if argF w 39 36 = bank && r.next ≤ (s.core core).cy && ((s.core core).engine e).stop = .run then some (e, r, w) else none
      | _ => none
    | none => none
  match (find 1).or (find 2) with
  | none => .refused .notEnabled
  | some (e, r, w) =>
    let v (i : Nat) : Nat := r.vals.getD i 0
    let bytes := if v 1 = 9 then 4 else 2
    .next (engineGot s core e (readRange s (whoCore s core e) w.cls.toNat (v 3) (v 2 * bytes)) fun x s =>
      let ents := (List.range (v 2)).map fun i => BitVec.ofNat 32 (x / 256 ^ (bytes * i) % 256 ^ bytes)
      let s := s.modCore core fun k => { k with xt := mapSet bank { full := true, blk := v 0, format := v 1, nent := v 2, entries := ents, clearedAt := 0 } k.xt }
      finishEntry s core e 2 w.signal)

end Sys2Proof.Machine
end

