-- ==== Sys2Proof/Machine/Store.lean ====
section
/-! DEFINITION. The meanings of the commands of W (R262 to R264, R270, R271, R310, R311) and the step in which it pops
store-queue elements and writes them. -/
namespace Sys2Proof.Machine

/-- R63, R168. -/
def execWSetrm (w : EWord) (s : State) : Out :=
  plainEntry w .set (fun s => s.modMe fun k => { k with rm := mapSet 3 w.round.toNat k.rm }) s
/-- R168. -/
def execWEnop (w : EWord) (s : State) : Out := plainEntry w .zero id s

/-- The pop-to-write latency and the cycles between pops (R279). -/
def wTime (s : State) (c va : Nat) : Lat × Nat := timeOf s c va 4 10 150

/-- The width of a block code (R258). -/
def blockCode (code : Nat) : Nat := widthOf (code - 8)

/-- R263, R264: a box of elements, or in block mode two planes and an outlier list whose header is read at issue (R68,
R69). The checks of the addresses come before those of the list (log entry 58). -/
def execWstrm (w : EWord) (x1 x2 x3 : BitVec 56) (s : State) : Out :=
  accessEntry (.wstrm w x1 x2 x3) w 4 (okWstrm w x1 x2 x3) .code (fun s c e =>
    let code := argF w 36 33
    let base := payAddr x1
    if code < 8 then
      let wd := wWidth code
      let (lo, hi) := boxSpan (boxExtents x2) (boxStrides x3)
      match spanTrap [⟨base + wd * lo, base + wd * hi + wd - 1, wd, true, false⟩] with
      | some cause => .trap cause
      | none => .go ⟨0, 0⟩ [] []
    else
      let n := argF w 30 10
      let list := payAddr x3
      match spanTrap [span base (8 * blockCode code * n) 1, span (payAddr x2) (2 * n) 1, spanNear list 16 1] with
      | some cause => .trap cause
      | none =>
        if list % 16 ≠ 0 then .trap 0x31
        else
          (peekRange s (whoCore s c e) list 16).prep fun h =>
            let count := h % 2 ^ 32
            let cap := h / 2 ^ 32 % 2 ^ 32
            if cap < count then .trap 0x31
            else
              match spanTrap [spanNear list (16 + 8 * cap) 1] with
              | some cause => .trap cause
              | none => .go ⟨0, 0⟩ [count, cap, h / 2 ^ 64 % 2] [(list, 16)]) s

/-- R270: the header is read and checked at issue. -/
def execWpkst (w : EWord) (x1 x2 : BitVec 56) (s : State) : Out :=
  accessEntry (.wpkst w x1 x2) w 3 (okWpkst w x1 x2) .code (fun s c e =>
    let pk := payAddr x1
    match spanTrap [spanNear pk 16 1] with
    | some cause => .trap cause
    | none =>
      (peekRange s (whoCore s c e) pk 16).prep fun x =>
        let h := packHeader x
        if !h.ok (payF x2 31 0) then .trap 0x37
        else
          match spanTrap [spanNear pk h.stores 1] with
          | some cause => .trap cause
          | none => .go ⟨0, 0⟩ [h.cap, h.fmt, h.flags, 0, 0] [(pk, 16)]) s

/-- R271: the span is that of every index below LIMIT; a LIMIT of 0 leaves nothing to check. -/
def execWscat (w : EWord) (x1 x2 x3 : BitVec 56) (s : State) : Out :=
  accessEntry (.wscat w x1 x2 x3) w 4 (okWscat w x1 x2 x3) .code (fun _ _ _ =>
    let wd := wWidth (argF w 35 32)
    match spanTrap (if payF x3 31 0 = 0 then [] else [span (payAddr x1) (wd * payF x3 31 0) wd]) with
    | some cause => .trap cause
    | none => .go ⟨0, 0⟩ [] []) s

/-! ### Writing one element -/

/-- The enabled lanes of a plain element. -/
def enabledOf (l : Lanes) (en : W64) (n : Nat) : List (Nat × W32) :=
  ((List.range n).filter fun i => en.getLsbD i).map fun i => (i, laneAt l i)

/-- Bits of packed mantissas (R60). -/
def packMant (m : Nat) : List Int → Nat
  | [] => 0
  | x :: r => (BitVec.ofInt m x).toNat + 2 ^ m * packMant m r

/-- The granules of core memory that written places touch. -/
def placesGrans (ws : List (Nat × Nat × Nat)) : List Nat :=
  ((ws.filter fun x => spaceOf x.1 = some .core).flatMap fun x => granNos x.1 x.2.1).eraseDups

/-- One element's places written: of the granules that the entry has written so far, those stay open that it may write again, and
the bits of the others are set now (R76). DESIGN CHOICE (log entry 50): a granule that a later element may write but does not (a disabled lane,
an absent packed value, no outlier) gets its bit at that later element or at the entry's end. -/
def writeOpen (s : State) (c : Nat) (r : Run) (cls : Nat) (again : Nat → Bool) (ws : List (Nat × Nat × Nat)) : Got Run :=
  (writeList s (whoCore s c 3) cls again [] ws).bind fun _ s =>
    let part := (r.part ++ placesGrans ws).eraseDups
    .ok { r with part := part.filter again } (closeGrans s c 3 (r.part.filter fun g => !again g))

/-- Whether an element of a box after the first n touches a granule. -/
def boxAgain (base w n : Nat) (ns : List Nat) (ss : List Int) (g : Nat) : Bool :=
  (List.range (ns.foldl (· * ·) 1 - n)).any fun i =>
    (granNos ((base : Int) + w * boxOffset (n + i) ns ss).toNat w).contains g

/-- R263: one plain element of a stream. -/
def writeStream (s : State) (c : Nat) (r : Run) (w : EWord) (x1 x2 x3 : BitVec 56) (l : Lanes) (en : W64) : Got Run :=
  let code := argF w 36 33
  let wd := wWidth code
  let addrs := boxLanes (payAddr x1) wd r.elem (boxExtents x2) (boxStrides x3)
  let ws := (enabledOf l en addrs.length).map fun e => (addrs.getD e.1 0, wd, wConv code r.mode e.2)
  writeOpen s c r w.cls.toNat (boxAgain (payAddr x1) wd (64 * (r.elem + 1)) (boxExtents x2) (boxStrides x3)) ws

/-- A range of bytes as places, cut at sector bounds. -/
def rangePlaces (va n v : Nat) : List (Nat × Nat × Nat) := (piecesOf va n).map fun p => (p.1, p.2, v / 256 ^ (p.1 - va))

/-- Whether a granule meets the bytes of a range. -/
def granMeets (g a stop : Nat) : Bool := (granNos a (stop - a)).contains g

/-- R264, R69: one block element: its mantissas, its exponents, its outliers while the list has room. -/
def writeBlocks (s : State) (c : Nat) (r : Run) (w : EWord) (x1 x2 x3 : BitVec 56) (m : Nat) (mant : List Int) (e0 e1 : Byte) (out : List (Nat × W32)) : Got Run :=
  let count := r.vals.getD 0 0
  let cap := r.vals.getD 1 0
  let n := argF w 30 10
  let room := out.take (cap - count)
  let zero (e : Byte) : Bool := e = 0 || e = 255
  let bits := packMant m (if zero e0 then (List.replicate 32 0) else mant.take 32) + 2 ^ (32 * m) * packMant m (if zero e1 then (List.replicate 32 0) else mant.drop 32)
  let recs := (List.range room.length).zip room
  let list := payAddr x3 + 16 + 8 * (count + room.length)
  let again (g : Nat) : Bool := r.elem + 1 < n &&
    (granMeets g (payAddr x1 + 8 * m * (r.elem + 1)) (payAddr x1 + 8 * m * n) || granMeets g (payAddr x2 + 2 * (r.elem + 1)) (payAddr x2 + 2 * n) || openEnd list (payAddr x3 + 16 + 8 * cap) g)
  (writeOpen s c r w.cls.toNat again
    (rangePlaces (payAddr x1 + 8 * m * r.elem) (8 * m) bits ++ rangePlaces (payAddr x2 + 2 * r.elem) 2 (e0.toNat + 256 * e1.toNat) ++
      recs.map fun e => (payAddr x3 + 16 + 8 * (count + e.1), 8, (64 * r.elem + e.2.1) + 2 ^ 32 * e.2.2.toNat))).bind fun r s =>
    .ok { r with vals := [count + room.length, cap, r.vals.getD 2 0, if room.length < out.length then 1 else r.vals.getD 3 0] } s

/-- A lane converted to a packed format (R270). -/
def packValue (fmt mode : Nat) (x : W32) : Nat :=
  if fmt = 7 then pack f16 mode (un32 x) else if fmt = 8 then pack bf16 mode (un32 x) else x.toNat % 256 ^ ((elemBytes fmt).getD 1)

/-- R311: one element of a packed store: eight mask bytes, then its present values while CAP allows. -/
def writePacked (s : State) (c : Nat) (r : Run) (w : EWord) (x1 x2 : BitVec 56) (l : Lanes) (en : W64) : Got Run :=
  let (h, body) := freeBody r x1 x2
  let nv := r.vals.getD 3 0
  let vals := (List.range (min 64 (h.len - 64 * r.elem))).map fun i => (i, if en.getLsbD i then packValue h.fmt r.mode (laneAt l i) else 0)
  let present := vals.filter fun e => e.2 ≠ 0
  let mask := present.foldl (fun m e => m + 2 ^ e.1) 0
  let room := present.take (h.cap - nv)
  let recs := (List.range room.length).zip room
  let stop := body + h.mb + h.w * (nv + room.length)
  let again (g : Nat) : Bool := granMeets g (body + 8 * (r.elem + 1)) (body + h.mb) || (64 * (r.elem + 1) < h.len && openEnd stop (body + h.body) g)
  (writeOpen s c r w.cls.toNat again
    (rangePlaces (body + 8 * r.elem) 8 mask ++ recs.map fun e => (body + h.mb + h.w * (nv + e.1), h.w, e.2.2))).bind fun r s =>
    .ok { r with vals := [h.cap, h.fmt, h.flags, nv + present.length, 0] } s

/-- R271: one pair of a scatter. Which granules a later pair writes is not known, so each write sets its bits (log entry 50). -/
def writeScatter (s : State) (c : Nat) (r : Run) (w : EWord) (x1 x2 x3 : BitVec 56) (d : Lanes) (en : W64) (x : Lanes) (en2 : W64) : Got Run :=
  let code := argF w 35 32
  let wd := wWidth code
  let n := min 64 (payF x2 31 0 - 64 * r.elem)
  let ws := ((enabledOf d (en &&& en2) n).filter fun e => (laneAt x e.1).toNat < payF x3 31 0).map fun e =>
    (payAddr x1 + wd * (laneAt x e.1).toNat, wd, wConv code r.mode e.2)
  (writeList s (whoCore s c 3) w.cls.toNat (fun _ => false) [] ws).bind fun _ s => .ok r s

/-- What a W entry under way is: words, fields, elements in all, the store queues it pops, latency and rate. -/
structure WWork where
  words : Nat
  w : EWord
  count : Nat
  queues : List Nat
  time : Lat × Nat
  /-- Whether an element's kind is one it takes. -/
  takes : SqData → Bool
  write : State → Nat → Run → List SqData → Got Run

def isPlain : SqData → Bool
  | .plain _ _ => true
  | .block _ _ _ _ _ => false

def wWork (s : State) (c : Nat) (r : Run) : Option WWork :=
  match r.ins with
  | .wstrm w x1 x2 x3 =>
    let code := argF w 36 33
    let count := if code < 8 then elemsOf ((boxExtents x2).foldl (· * ·) 1) else argF w 30 10
    let takes (d : SqData) : Bool := match d with
      | .plain _ _ => code < 8
      | .block m _ _ _ _ => 8 ≤ code && m = blockCode code
    some ⟨4, w, count, [argF w 39 38], wTime s c (payAddr x1), takes, fun s c r d =>
      match d with
      | [.plain l en] => writeStream s c r w x1 x2 x3 l en
      | [.block m mant e0 e1 out] => writeBlocks s c r w x1 x2 x3 m mant e0 e1 out
      | _ => .ok r s⟩
  | .wpkst w x1 x2 => some ⟨3, w, elemsOf (payF x2 31 0), [argF w 39 38], wTime s c (payAddr x1), isPlain, fun s c r d =>
      match d with
      | [.plain l en] => writePacked s c r w x1 x2 l en
      | _ => .ok r s⟩
  | .wscat w x1 x2 x3 => some ⟨4, w, elemsOf (payF x2 31 0), [argF w 39 38, argF w 37 36], wTime s c (payAddr x1), isPlain, fun s c r d =>
      match d with
      | [.plain l en, .plain x en2] => writeScatter s c r w x1 x2 x3 l en x en2
      | _ => .ok r s⟩
  | _ => none

/-- The end of an entry whose elements are all written: the header of an outlier list or of a packed structure goes
last, and a full one traps after it (R69, R94, R310, R311). `metaPos` is 1 once the header has been written. -/
def wEnd (s : State) (c : Nat) (r : Run) (k : WWork) : State :=
  let u := whoCore s c 3
  let cls := k.w.cls.toNat
  let cy := (s.core c).cy
  let fin (s : State) : State := finishEntry s c 3 k.words k.w.signal
  let full (s : State) (cause : Nat) : State := trapEngine (setRun s c 3 { r with metaPos := 1 }) c 3 cause none
  if r.metaPos = 1 then fin s
  else
    match r.ins with
    | .wstrm w _ _ x3 =>
      if argF w 36 33 < 8 then fin s
      else
        let count := r.vals.getD 0 0
        let tooBig := r.vals.getD 3 0 = 1
        engineGot s c 3 (writeAtomic s u (payAddr x3) 16 (count + 2 ^ 32 * r.vals.getD 1 0 + 2 ^ 64 * (if tooBig then 1 else r.vals.getD 2 0))) fun _ s =>
          if tooBig then full s 0x34 else fin s
    | .wpkst _ x1 x2 =>
      let (h, body) := freeBody r x1 x2
      let nv := r.vals.getD 3 0
      if r.vals.getD 4 0 = 0 then
        let rest := h.mb - 8 * k.count
        engineGot s c 3 (writeRange s u cls (body + 8 * k.count) rest 0) fun _ s =>
          setRun (closeGrans s c 3 r.part) c 3 { r with part := [], vals := [h.cap, h.fmt, h.flags, nv, 1], next := cy + 1 }
      else
        let tooBig := h.cap < nv
        let flags := (if tooBig then 1 else h.flags % 2) + 2 * (1 - h.slot)
        engineGot s c 3 (writeAtomic s u (payAddr x1) 16 (h.len + 2 ^ 32 * min nv h.cap + 2 ^ 64 * h.cap + 2 ^ 96 * h.fmt + 2 ^ 104 * flags)) fun _ s =>
          if tooBig then full s 0x35 else fin s
    | _ => fin s

/-- The data of a store queue's oldest element, once it has landed. -/
def sqHead (k : Core) (q : Nat) : Option SqData :=
  match mapGet [] q k.q.sq with
  | x :: _ => x.data
  | [] => none

/-- Pops one element of each queue of an entry and holds it until its writes perform (R311). At an element of a wrong kind W stops once
those before it are written (R264, R270, R271). -/
def wPop (s : State) (c : Nat) (r : Run) (k : WWork) : State :=
  let heads := k.queues.filterMap (sqHead (s.core c))
  if heads.length < k.queues.length then s
  else if heads.any fun d => !k.takes d then if r.pend.isEmpty then trapEngine s c 3 0x29 none else s
  else
    let cy := (s.core c).cy
    let s := k.queues.foldl (fun s q => progress (s.modQ c fun x => { x with sq := mapMod [] q (fun l => l.drop 1) x.sq }) c) s
    setRun s c 3 { r with pend := r.pend ++ [((s.core c).after s.now k.time.1, heads)], next := cy + k.time.2 }

/-- R262: W writes the elements whose writes are due, ends the entry after the last, and pops the next element. On a
frozen core it writes what it has popped and pops nothing (R326). -/
def execSqElementPop (core : Nat) (s : State) : Out :=
  match (s.core core).runOf 3 with
  | none => .refused .notEnabled
  | some r =>
    match wWork s core r with
    | none => .refused .notEnabled
    | some k =>
      let cy := (s.core core).cy
      let frozen := (s.core core).mir.st = .frozen
      if ((s.core core).engine 3).stop ≠ .run then .refused .notEnabled
      else
        match r.pend with
        | (due, d) :: rest =>
          if due.over cy s.now ∨ frozen then
            .next (engineGot s core 3 (k.write s core r d) fun r2 s =>
              let r2 := { r2 with elem := r.elem + 1, pend := rest }
              let s := setRun s core 3 r2
              if frozen then s
              else if k.count ≤ r2.elem then wEnd s core r2 k
              else if r2.next ≤ cy && decide (r2.elem + rest.length < k.count) then wPop s core r2 k else s)
          else if !frozen && r.next ≤ cy && decide (r.elem + r.pend.length < k.count) then .next (wPop s core r k)
          else .refused .notEnabled
        | [] =>
          if frozen ∨ cy < r.next then .refused .notEnabled
          else if k.count ≤ r.elem then .next (wEnd s core r k)
          else .next (wPop s core r k)

end Sys2Proof.Machine
end

