-- ==== Sys2Proof/Machine/Matrix.lean ====
section
/-! DEFINITION. The meanings of the commands of M and the steps of its arrays (R280 to R297): leases, issue checks and
spacing, block sums, drains, progress records, stopping and resuming. -/
namespace Sys2Proof.Machine

/-! ### What an array command is -/

/-- An array command's fields (R286): kind 0 `mmul` and `mmul2`, 1 `mdrain`, 2 `mzero`. -/
structure MOp where
  kind : Nat
  arrays : List Nat
  tile : Nat
  handles : List Nat
  w : EWord
  klen : Nat
  maxaddr : Nat
  deriving DecidableEq, Repr

def mOp (i : Instr) : Option MOp :=
  match i with
  | .mmul w x1 => some ⟨0, [argF w 39 39], argF w 38 38, [payF x1 55 36, payF x1 35 16], w, payF x1 15 8 + 1, 0⟩
  | .mmul2 w x1 x2 => some ⟨0, [0, 1], argF w 38 38, [payF x1 55 36, payF x2 55 36, payF x1 35 16], w, payF x1 15 8 + 1, 0⟩
  | .mdrain w x1 x2 => some ⟨1, [argF w 39 39], argF w 38 38, [payF x1 55 36], w, 0, payAddr x2⟩
  | .mzero w => some ⟨2, [argF w 39 39], argF w 38 38, [], w, 0, 0⟩
  | _ => none
def MCmd.op (x : MCmd) : MOp := (mOp x.ins).getD ⟨2, [], 0, [], ⟨0, 0, 0, 0, 0, 0⟩, 0, 0⟩

/-- The latched descriptors: A operands and B, or the output. -/
def MCmd.a (x : MCmd) (i : Nat) : Desc := (x.descs.getD i (0, Desc.reset)).2
def MCmd.b (x : MCmd) : Desc := (x.descs.getLastD (0, Desc.reset)).2
/-- Cycles of one K block: 32 mB p (R281). -/
def blockCycles (as : List Desc) (b : Desc) : Nat :=
  32 * (blockWidth b.format).getD 2 * if as.any fun d => d.format = 0x11 then 2 else 1
def MCmd.unit (x : MCmd) : Nat := blockCycles ((x.descs.dropLast).map (·.2)) x.b
/-- Cycles of one row of a drain: q of R292. -/
def drainCycles (d : Desc) : Nat := (d.cols * (elemBytes d.format).getD 4 + 255) / 256
/-- Rows of the largest A operand. -/
def MCmd.rows (x : MCmd) : Nat := ((x.descs.dropLast).map (·.2.rows)).foldl max 0

/-- The cycle from which a later array command may issue, as an earlier one in progress has it (R294). -/
def MCmd.spacing (x : MCmd) (y : MOp) : Nat :=
  let o := x.op
  let array := o.arrays.any fun a => y.arrays.contains a
  let tile := array && o.tile = y.tile
  if o.kind = 0 then
    let c := x.unit * (o.klen - x.block0)
    if array && y.kind = 0 then x.start + c else if tile then x.start + c + 12 else 0
  else if !tile then 0
  else if o.kind = 2 then x.start + (32 - x.block0)
  else x.start + (x.b.rows - 1 - x.block0) * drainCycles x.b + 1

/-- At most three array commands are in progress on an array (R291). -/
def arraysFull (l : List MCmd) (y : MOp) : Bool :=
  y.arrays.any fun a => 3 ≤ (l.filter fun x => x.op.arrays.contains a).length

/-! ### Issue checks (R282, R296) -/

/-- The planes of a block-format operand (R60, R86) as spans. -/
def planes (d : Desc) : List Span :=
  let m := (blockWidth d.format).getD 2
  [span d.base.toNat ((d.rows - 1) * d.stride + d.cols * m / 8) 1, span d.ebase.toNat ((d.rows - 1) * (d.stride / (4 * m)) + d.cols / 32) 1]

/-- Checks 3 to 6 of R296, and the occupancy D of R283. -/
def arrayChecks (y : MOp) (ds : List Desc) : Nat ⊕ Nat :=
  match y.kind with
  | 0 =>
    let b := ds.getLastD Desc.reset
    let as := ds.dropLast
    let c := blockCycles as b * y.klen
    if ds.any fun d => (blockWidth d.format).isNone || d.rows = 0 || decide (256 < d.rows) || decide (d.cols < 32 * (argF y.w 30 16 + y.klen)) then .inl 0x2B
    else if as.any fun d => d.cols ≠ (as.headD b).cols then .inl 0x2B
    else if 8192 < c + 12 then .inl 0x2B
    else
      match spanTrap (ds.flatMap planes) with
      | some cause => .inl cause
      | none => .inr (c + 12)
  | 1 =>
    let d := ds.headD Desc.reset
    let max := argF y.w 36 36 = 1
    if !([9, 8, 7] : List Nat).contains d.format || decide (256 < argF y.w 35 28 + d.rows) || decide (256 < argF y.w 27 20 + d.cols) then .inl 0x2B
    else if d.readOnly then .inl 0x2C
    else
      match spanTrap [span d.base.toNat ((d.rows - 1) * d.stride + d.cols * (elemBytes d.format).getD 4) 1] with
      | some cause => .inl cause
      | none => if max && y.maxaddr % 4 ≠ 0 then .inl 0x11 else .inr ((d.rows - 1) * drainCycles d + 1)
  | _ => .inr 32

/-- The arrays of a designation (R285). -/
def desigArrays (d : Nat) : List Nat := if d = 0 then [0] else if d = 1 then [1] else [0, 1]

/-- Asks the arbiter for the arrays that M wants (R283). -/
def askLease (s : State) (c : Nat) : State := s.modM c fun m => { m with request := true }

/-- The in-flight counts of a command's slots (R87). -/
def modInflight (s : State) (ctx : Nat) (f : Nat → Nat) (l : List (Nat × Desc)) : State :=
  l.foldl (fun s e => s.modSlot ctx e.1 fun o => { o with inflight := f o.inflight }) s

/-- The issue of an array command of n words (R171, R282 to R285, R294, R296). -/
def arrayEntry (ins : Instr) (w : EWord) (n : Nat) (ok : Bool) (round : RF) (s : State) : Out :=
  let c := s.cur.1
  let k := s.me
  match eFault 5 w ok round, mOp ins with
  | some cause, _ => .next (trapEngine s c 5 cause none)
  | none, none => .refused .notEnabled
  | none, some y =>
    if !waitReady k 5 w.wait || k.m.halted || k.m.leasing.isSome || arraysFull k.m.cmds y || (k.m.cmds.any fun x => decide (k.cy < x.spacing y)) then .next s
    else if !k.m.dvalid || !(y.arrays.all fun a => (desigArrays k.m.desig).contains a) then .next (trapEngine s c 5 0x2A none)
    else if !k.m.held then .next (askLease s c)
    else if k.m.granted.isSome then .next s
    else
      let ds := y.handles.map fun h => (handleCheck s k.ctx h).map fun d => (h % 4096, d)
      if ds.any fun d => d.isNone then .next (trapEngine s c 5 0x41 none)
      else
        let ds := ds.filterMap id
        match arrayChecks y (ds.map (·.2)) with
        | .inl cause => .next (trapEngine s c 5 cause none)
        | .inr occ =>
          if 64 ≤ k.m.used ∨ 8192 < k.cy - k.m.grant + occ then .next (askLease (endLease s c) c)
          else
            let x : MCmd := { ins := ins, word := (k.engine 5).word, addr := entryAddr k 5, signal := w.signal, krow := 0, wrow := 0, dmax := 0, descs := ds
                              mode := roundMode k 5 w.round, start := k.cy, block0 := 0, fetched := 0, blk := [], late := false, tail := ⟨0, 0⟩, id := s.nextId + 1 }
            let s := advanceHead (startEntry { s with nextId := s.nextId + 1 } c 5 n w.wait) c 5 n
            let s := modInflight s k.ctx (· + 1) ds
            let s := s.modM c fun m => { m with used := m.used + 1, cmds := m.cmds ++ [x] }
            .next (s.modEng c 5 fun g => { g with next := k.cy + 1 })

/-- An entry that completes at issue; it stays behind an `mlease` that waits for its grant. -/
def mPlain (w : EWord) (round : RF) (f : State → State) (s : State) : Out :=
  if (eFault 5 w (okPlain w) round).isNone && s.me.m.leasing.isSome then .next s else plainEntry w round f s

/-- R63, R168. -/
def execMSetrm (w : EWord) (s : State) : Out := mPlain w .set (fun s => s.modMe fun k => { k with rm := mapSet 5 w.round.toNat k.rm }) s
/-- R168. -/
def execMEnop (w : EWord) (s : State) : Out := mPlain w .zero id s

/-- R282: ends the lease, designates, and completes when the lease is granted. -/
def execMlease (w : EWord) (s : State) : Out :=
  let c := s.cur.1
  match eFault 5 w (okMlease w) .zero with
  | some cause => .next (trapEngine s c 5 cause none)
  | none =>
    if !waitReady s.me 5 w.wait || s.me.m.leasing.isSome then .next s
    else
      let s := advanceHead (startEntry s c 5 1 w.wait) c 5 1
      let s := (endLease s c).modM c fun m => { m with dvalid := true, desig := argF w 39 38, leasing := some w.signal, request := true }
      let cy := (s.core c).cy
      .next (s.modEng c 5 fun g => { g with next := cy + 1 })

/-- R282. -/
def execMrel (w : EWord) (s : State) : Out :=
  mPlain w .zero (fun s => (endLease s s.cur.1).modM s.cur.1 fun m => { m with dvalid := false, desig := 0 }) s

/-- R287. -/
def execMmul (w : EWord) (x1 : BitVec 56) (s : State) : Out := arrayEntry (.mmul w x1) w 2 (okMmul w x1) .code s
/-- R289. -/
def execMmul2 (w : EWord) (x1 x2 : BitVec 56) (s : State) : Out := arrayEntry (.mmul2 w x1 x2) w 3 (okMmul2 w x1 x2) .code s
/-- R292. -/
def execMdrain (w : EWord) (x1 x2 : BitVec 56) (s : State) : Out := arrayEntry (.mdrain w x1 x2) w 3 (okMdrain w x1 x2) .code s
/-- R293. -/
def execMzero (w : EWord) (s : State) : Out := arrayEntry (.mzero w) w 1 (okMzero w) .zero s

/-! ### The lease arbiter (R284) -/

/-- One scan: the waiting requests in round-robin order; the arrays that earlier requests of the scan name are passed
down. -/
def scanLeases (s : State) (k : Nat) (named : List Nat) : List Nat → State × Bool
  | [] => (s, false)
  | c :: r =>
    let m := (s.core c).m
    if !m.request then scanLeases s k named r
    else
      let arr := ([0, 1] : List Nat).filter m.wants
      let u := s.cluster k
      let free (a : Nat) : Bool := let o := if a = 0 then u.mx0 else u.mx1
                                   o.core.isNone && decide (o.freeAt ≤ u.dcy)
      if arr.all fun a => free a && !named.contains a then
        let own (a : Nat) (o : ArrayOwn) : ArrayOwn := if arr.contains a then ⟨some c, o.freeAt⟩ else o
        let s := s.modCluster k fun u => { u with mx0 := own 0 u.mx0, mx1 := own 1 u.mx1, lastGrant := laneOf c }
        let cy := (s.core c).cy
        let s := s.modM c fun m => { m with request := false, held := true, granted := some (cy + 4), grant := cy, used := 0, age := 0 }
        ((scanLeases s k (named ++ arr) r).1, true)
      else scanLeases s k (named ++ arr) r

/-- R284: the cluster's arbiter grants what it can in this cycle. -/
def execLeaseGrant (cl : Nat) (s : State) : Out :=
  let start := (s.cluster cl).lastGrant + 1
  let r := scanLeases s cl [] ((List.range 8).map fun i => cl * 8 + (start + i) % 8)
  if r.2 then .next r.1 else .refused .notEnabled

/-! ### The accumulator store (R82, R367) -/

/-- An element of a tile of an array of a cluster (R82). -/
def accKey (k a t row col : Nat) : Nat := (((k * 2 + a) * 2 + t) * 256 + row) * 256 + col
def bankKey (a t b : Nat) : Nat := (a * 2 + t) * 16 + b
def accAt (s : State) (key : Nat) : W32 := mapGet 0 key s.acc
def accPut (s : State) (key : Nat) (v : W32) : State := { s with acc := mapPut 0 key v s.acc }
/-- Whether an element lies in a poisoned granule of 16. -/
def accBad (s : State) (key : Nat) : Bool := mapGet false (key / 16) s.accPoison
/-- Whether any element of a row's columns is poisoned. -/
def rowBad (s : State) (key n : Nat) : Bool := !s.accPoison.isEmpty && (List.range n).any fun j => accBad s (key + j)
/-- A write of n elements of a row: the granules it covers are clean again. -/
def rowPut (s : State) (key : Nat) (l : List W32) : State :=
  let n := l.length
  let s := ((List.range n).zip l).foldl (fun s e => accPut s (key + e.1) e.2) s
  if s.accPoison.isEmpty then s
  else { s with accPoison := s.accPoison.filter fun e => !(decide (key ≤ e.1 * 16) && decide (e.1 * 16 + 16 ≤ key + n)) }
/-- M takes the port of every bank of the given columns in this cycle (R278). -/
def takePorts (s : State) (k a t col n : Nat) : State :=
  (touchArray s k a).modCluster k fun u => { u with mbanks := u.mbanks ++ (List.range ((col + n - 1) / 16 + 1 - col / 16)).map fun i => bankKey a t (col / 16 + i) }

/-! ### Stopping (R290, R296, R360) -/

/-- Puts a command's new record in the place of its old one. -/
def replaceCmd (s : State) (c : Nat) (x y : MCmd) : State := s.modM c fun m => { m with cmds := m.cmds.map fun z => if z = x then y else z }

/-- An exponent and mantissas of one row's block (R59, R60). -/
def blockMant (d : Desc) (e : Nat × Nat) : Nat × List Int :=
  let m := (blockWidth d.format).getD 2
  (e.1, (List.range 32).map fun i => signedOf m (e.2 / 2 ^ (m * i)))

/-- c(kb) of R287: the exact contribution of a block. -/
def contribution (da db : Desc) (a b : Nat × List Int) : FVal :=
  if a.1 = 255 ∨ b.1 = 255 then .nan
  else if a.1 = 0 ∨ b.1 = 0 then .zero false
  else
    let sum := (a.2.zip b.2).foldl (fun (t : Int) e => t + e.1 * e.2) 0
    let x (e : Nat) (d : Desc) : Int := (e : Int) - 127 - (blockWidth d.format).getD 2 + 2
    if sum = 0 then .zero false else .num sum (x a.1 da + x b.1 db)

/-- The rows of the block sums of group g that one array takes (R287, R288): poisoned data is refused. -/
def sumRows (s : State) (k : Nat) (x : MCmd) (ai a : Nat) (bs : List (Nat × List Int)) (as : List (Nat × Nat)) (g : Nat) : Option State :=
  let o := x.op
  let da := x.a ai
  let first := x.krow = 0
  let fresh := first && argF o.w 37 36 = 0
  let sh : Int := if first && argF o.w 37 36 = 2 then argF o.w 35 31 else 0
  let rows := ((List.range 8).map (8 * g + ·)).filter fun i => i < da.rows
  let s := if rows.isEmpty then s else takePorts s k a o.tile 0 x.b.rows
  rows.foldl (fun (acc : Option State) i =>
    acc.bind fun s =>
      let key := accKey k a o.tile i 0
      if !fresh && rowBad s key x.b.rows then none
      else
        let av := blockMant da (as.getD i (0, 0))
        let l := ((List.range bs.length).zip bs).map fun e =>
          let old := if fresh then .zero false else scaleV (-sh) (un32 (accAt s (key + e.1)))
          pk32 x.mode (addV x.mode old (contribution da x.b av e.2))
        some (rowPut s key l)) (some s)

/-- Writes the row group that is due of the block that stands fetched (R288, R289). -/
def writeGroup (s : State) (c : Nat) (x : MCmd) : Option (State × MCmd) :=
  let k := clusterOf c
  let o := x.op
  let g := x.wrow / 8
  let na (i : Nat) : Nat := (x.a i).rows
  let bs := (x.blk.drop ((List.range o.arrays.length).map na).sum).map (blockMant x.b)
  let as (i : Nat) : List (Nat × Nat) := x.blk.drop ((List.range i).map na).sum
  let t := ((List.range o.arrays.length).zip o.arrays).foldl (fun (acc : Option State) e => acc.bind fun s => sumRows s k x e.1 e.2 bs (as e.1) g) (some s)
  t.map fun s => (s, if x.rows ≤ 8 * (g + 1) then { x with krow := x.krow + 32, wrow := 0 } else { x with wrow := 8 * (g + 1) })

/-- Completes the writes of a block whose sum is formed, when M is suspended (R290). -/
def finishBlock (s : State) (c : Nat) (x : MCmd) : Nat → State
  | 0 => s
  | f + 1 =>
    if x.op.kind ≠ 0 ∨ x.fetched ≠ x.krow / 32 + 1 then s
    else
      match writeGroup s c x with
      | none => s
      | some (t, y) => finishBlock (replaceCmd t c x y) c y f

/-- M stops with a record of one of its commands in progress: every one of them stops with its progress record, and the
lease ends. -/
def stopM (s : State) (c cause kind entry : Nat) (addr info : W64) : State :=
  let s := (s.core c).m.cmds.foldl (fun s x => finishBlock s c x 33) s
  let s := postRecord s (dieOf c) { coreRecord s c 5 cause kind addr info 5 false with entry := entry }
  let s := s.modM c fun m => { m with halted := true, cmds := m.cmds.map fun x => { x with fetched := 0, blk := [], late := false } }
  endLease (s.modEng c 5 fun g => { g with stop := .reporting }) c

/-- An access of a command in progress: a trap stops M, a stall or a walk holds the array for a cycle (R288, R290). -/
def matrixGot {α : Type} (s0 : State) (c : Nat) (x : MCmd) (g : Got α) (f : α → State → State) : State :=
  let hold (s : State) : State := replaceCmd s c x { x with start := x.start + 1, late := true }
  match g with
  | .ok a s => f a s
  | .trap cause info s => stopM s c cause 0 x.id (recordAddr info x.addr) (recordInfo cause info x.word)
  | .stall m => hold (noteStall s0 m)
  | .miss va w e => hold (startWalk s0 (whoCore s0 c 5) va w e (c, 5))

/-! ### Multiplication -/

/-- The pieces of block kb of every row of an operand: the mantissas, then the exponents (R60, R86). -/
def operandPieces (d : Desc) (kb : Nat) : List (Nat × Nat) :=
  let m := (blockWidth d.format).getD 2
  ((List.range d.rows).flatMap fun i => piecesOf (d.base.toNat + i * d.stride + 4 * m * kb) (4 * m)) ++
    (List.range d.rows).map fun i => (d.ebase.toNat + i * (d.stride / (4 * m)) + kb, 1)
/-- The exponents and packed mantissas by row, from what those pieces read. -/
def operandRows (d : Desc) (kb : Nat) (l : List Nat) : List (Nat × Nat) :=
  let m := (blockWidth d.format).getD 2
  let go := (List.range d.rows).foldl (fun (acc : List Nat × List Nat) i =>
    let ps := piecesOf (d.base.toNat + i * d.stride + 4 * m * kb) (4 * m)
    (acc.1 ++ [joinNat ((acc.2.take ps.length).zip (ps.map (·.2)))], acc.2.drop ps.length)) ([], l)
  (go.2.take d.rows).zip go.1

/-- Fetches the block that is due (R290). -/
def fetchBlock (s : State) (c : Nat) (x : MCmd) : Got (List (Nat × Nat)) :=
  let kb := argF x.op.w 30 16 + x.krow / 32
  let ds := x.descs.map (·.2)
  (readList s (whoCore s c 5) x.op.w.cls.toNat [] (ds.flatMap fun d => operandPieces d kb)).bind fun l s =>
    let go := ds.foldl (fun (acc : List (Nat × Nat) × List Nat) d =>
      let n := (operandPieces d kb).length
      (acc.1 ++ operandRows d kb (acc.2.take n), acc.2.drop n)) ([], l)
    .ok go.1 s

/-- The cycle of the next write of a multiplication, and of its drain start (R288). -/
def MCmd.nextWrite (x : MCmd) : Nat := x.start + x.unit * (x.krow / 32 - x.block0 + 1) - 20 + x.wrow / 8
def MCmd.drainStart (x : MCmd) : Nat := x.start + x.unit * (x.op.klen - x.block0) + 12
def MCmd.writeDue (x : MCmd) (cy : Nat) : Bool := x.op.kind = 0 && decide (x.krow / 32 < x.op.klen) && decide (x.nextWrite ≤ cy)
def MCmd.drainDue (x : MCmd) (cy : Nat) : Bool := x.op.kind = 0 && decide (x.op.klen ≤ x.krow / 32) && decide (x.drainStart ≤ cy)

/-- One due write of a multiplication, with the fetch of its block before the block's first. -/
def multiplyStep (s : State) (c : Nat) (x : MCmd) : State :=
  let write (s : State) (x y : MCmd) : State :=
    match writeGroup s c y with
    | some (s, z) => replaceCmd s c x z
    | none => stopM (replaceCmd s c x y) c 0x54 0 x.id x.addr 0
  let kb := argF x.op.w 30 16 + x.krow / 32
  if x.fetched = x.krow / 32 + 1 then write s x x
  else
    match tableWait s (whoCore s c 5) ((x.descs.flatMap fun d => operandPieces d.2 kb).map (·.1)) with
    | some s => replaceCmd s c x { x with start := x.start + 6, late := true }
    | none => matrixGot s c x (fetchBlock s c x) fun l s => write s x { x with fetched := x.krow / 32 + 1, blk := l, late := false }

/-- Applies a step to the commands that ask for it, oldest first, while M has not stopped. -/
def eachCmd (s : State) (c : Nat) (p : MCmd → Bool) (f : State → MCmd → State) : State :=
  (s.core c).m.cmds.foldl (fun s x => if p x && !(s.core c).m.halted then f s x else s) s

/-- R288: the block sums that are due in this cycle are written to a group of tile rows. -/
def execMmulBlockWrite (core : Nat) (s : State) : Out :=
  let k := s.core core
  if !k.m.halted && k.m.cmds.any fun x => x.writeDue k.cy && !x.late then
    .next (eachCmd s core (fun x => x.writeDue k.cy && !x.late) (fun s x => multiplyStep s core x))
  else .refused .notEnabled

/-- R288, R290: a fetch that holds its array is tried again, and goes on once it arrives. -/
def execOperandFetchArrival (core : Nat) (s : State) : Out :=
  let k := s.core core
  if !k.m.halted && k.m.cmds.any fun x => x.writeDue k.cy && x.late then
    .next (eachCmd s core (fun x => x.writeDue k.cy && x.late) (fun s x => multiplyStep s core x))
  else .refused .notEnabled

/-- A command completes: it leaves the list, its handles are released, and it signals (R18, R87). -/
def finishCmd (s : State) (c : Nat) (x : MCmd) : State :=
  let s := s.modM c fun m => { m with cmds := m.cmds.filter (· ≠ x) }
  completeEntry (modInflight s (s.core c).ctx (· - 1) x.descs) c 5 x.signal

/-- R288: multiplications that have reached their drain start complete. -/
def execMmulDrainStart (core : Nat) (s : State) : Out :=
  let k := s.core core
  if !k.m.halted && k.m.cmds.any fun x => x.drainDue k.cy then
    .next (dropArrays (eachCmd s core (fun x => x.drainDue k.cy) (fun s x => finishCmd s core x)) core)
  else .refused .notEnabled

/-! ### mdrain and mzero (R292, R293) -/

/-- Converts one element (R58), and its magnitude as binary32 bits; none for NaN. -/
def drainElem (fmt mode : Nat) (v : W32) : Nat × Option Nat :=
  let x := un32 v
  let f := if fmt = 7 then f16 else if fmt = 8 then bf16 else f32
  let y := pack f mode x
  (y, if isNan x then none else some (pack f32 1 (unpack f y) % 2 ^ 31))

/-- The cycle of the next row of a drain or the next group of a clear. -/
def MCmd.rowDue (x : MCmd) (cy : Nat) : Bool :=
  if x.op.kind = 1 then decide (x.krow < x.b.rows) && decide (x.start + (x.krow - x.block0) * drainCycles x.b ≤ cy)
  else if x.op.kind = 2 then decide (x.start + 1 + (x.krow / 8 - x.block0) ≤ cy) else false

/-- Row KROW of a drain: read, converted and cleared; its store performs later (R292, R297). -/
def drainStep (s : State) (c : Nat) (x : MCmd) : State :=
  let k := clusterOf c
  let o := x.op
  let d := x.b
  let a := o.arrays.headD 0
  let key := accKey k a o.tile (argF o.w 35 28 + x.krow) (argF o.w 27 20)
  let w := (elemBytes d.format).getD 4
  if rowBad s key d.cols then stopM s c 0x54 0 x.id x.addr 0
  else
    let ys := (List.range d.cols).map fun j => drainElem d.format x.mode (accAt s (key + j))
    let v := ys.foldr (fun y n => y.1 + 256 ^ w * n) 0
    let mx := ys.foldl (fun m y => max m (y.2.getD 0)) x.dmax.toNat
    let va := d.base.toNat + x.krow * d.stride
    let t := (timeOf s c va 4 10 150).1
    let row : DrainRow := { due := ⟨(s.cluster k).dcy + t.dom, s.now + t.far⟩, va := va, n := d.cols * w, v := v, cls := o.w.cls.toNat, ctx := (s.core c).ctx, addr := x.addr, word := x.word, bad := false, id := x.id, kern := (s.core c).kern }
    let s := if argF o.w 37 37 = 1 then rowPut s key (List.replicate d.cols 0) else s
    replaceCmd ((touchArray s k a).modM c fun m => { m with stores := m.stores ++ [row] }) c x
      { x with krow := x.krow + 1, dmax := if argF o.w 36 36 = 1 then BitVec.ofNat 32 mx else 0, late := false }

/-- A row has been stored: its drain can complete after it, or after the maximum that follows the last one (R292, R297). -/
def rowLanded (s : State) (c : Nat) (r : DrainRow) : State :=
  let tail (x : MCmd) : Lat :=
    let t := if argF x.op.w 36 36 = 1 then (timeOf s c x.op.maxaddr 4 12 150).1 else ⟨0, 0⟩
    ⟨(s.cluster (clusterOf c)).dcy + t.dom, s.now + t.far + if argF x.op.w 36 36 = 1 && clusterOnly s (whoCore s c 5) x.op.maxaddr then 6 else 0⟩
  s.modM c fun m => { m with stores := m.stores.erase r, cmds := m.cmds.map fun x => if x.id = r.id then { x with tail := tail x } else x }

/-- The store of a row of a drain, which sets full-empty bits as it performs (R76, R292). It performs whatever has become of its core since
(R326); one that fails stops M and is tried again once M goes on (R290, R363). -/
def landRow (s : State) (c : Nat) (r : DrainRow) : State :=
  let w := { whoCore s c 5 with ctx := r.ctx }
  let put (s : State) (y : DrainRow) : State := s.modM c fun m => { m with stores := m.stores.map fun z => if z = r then y else z }
  match tableWait s w ((piecesOf r.va r.n).map (·.1)) with
  | some s => put s { r with due := ⟨r.due.dom, s.now + 6⟩ }
  | none =>
    match writeRange s w r.cls r.va r.n r.v with
    | .ok _ s => rowLanded s c r
    | .stall m => noteStall s m
    | .miss va wr fe => startWalk s w va wr fe (c, 5)
    | .trap cause info t =>
      if (s.core c).mir.st = .idle then rowLanded s c r
      else if ((s.core c).engine 5).stop ≠ .run then put s { r with bad := true }
      else stopM (put t { r with bad := true }) c cause 0 r.id (recordAddr info r.addr) (recordInfo cause info r.word)

/-- Whether a row's store is tried now. -/
def rowStores (s : State) (c : Nat) (r : DrainRow) : Bool :=
  r.due.over (s.cluster (clusterOf c)).dcy s.now && (!r.bad || ((s.core c).engine 5).stop = .run)
/-- The stores of drained rows that are due in this cycle. -/
def drainStores (s : State) (c : Nat) : State := ((s.core c).m.stores.filter (rowStores s c)).foldl (fun s r => landRow s c r) s

/-- Row group KROW / 8 of a clear; the last one completes the command (R293). -/
def clearStep (s : State) (c : Nat) (x : MCmd) : State :=
  let k := clusterOf c
  let o := x.op
  let a := o.arrays.headD 0
  let s := (List.range 8).foldl (fun s i => rowPut s (accKey k a o.tile (x.krow + i) 0) (List.replicate 256 0)) s
  if 256 ≤ x.krow + 8 then finishCmd s c x else replaceCmd s c x { x with krow := x.krow + 8 }

/-- Whether a drain can complete (R297): its rows have been read and stored, and the time of the maximum that follows has passed. -/
def MCmd.endDue (s : State) (c : Nat) (x : MCmd) : Bool :=
  x.op.kind = 1 && decide (x.b.rows ≤ x.krow) && ((s.core c).m.stores.all fun r => r.id ≠ x.id) && x.tail.over (s.cluster (clusterOf c)).dcy s.now

/-- The atomic maximum of R292, by M: it bypasses the cluster cache (R84, R110). DESIGN CHOICE (log entry 50): it leaves full-empty bits as they are, for R292
has the stores set them. -/
def atomicMax (s : State) (c : Nat) (va : Nat) (v : Nat) : Got Unit :=
  let u := whoCore s c 5
  (place s u va true false).bind fun p s =>
    if watermarkStall s u p.pa 4 then .stall (stallMark s u p.pa 4)
    else if rangePoisoned s p.pa 4 then .trap (poisonCause p.pa) none s
    else .ok () (pokeBytes s u p.pa (natBytes (max (memNat s.mem p.pa 4) v) 4) false)

/-- R292: a drain whose stores have performed makes its atomic maximum and completes. -/
def execMdrainComplete (core : Nat) (s : State) : Out :=
  let k := s.core core
  if !k.m.halted && k.m.cmds.any fun x => x.endDue s core then
    .next (eachCmd s core (fun x => x.endDue s core) (fun s x =>
      if argF x.op.w 36 36 = 1 then matrixGot s core x (atomicMax s core x.op.maxaddr x.dmax.toNat) fun _ s => finishCmd s core x
      else finishCmd s core x))
  else .refused .notEnabled

/-! ### The arrays' own turns: grants that have ripened, resumed commands, rows of drains and clears -/

/-- The stopped commands resume in issue order, spaced as though they issued now (R291). The lease is then that of the designation; without one it
ends at once (R282; log entry 62). -/
def resumeCmds (s : State) (c : Nat) : State :=
  let cy := (s.core c).cy
  let go := (s.core c).m.cmds.foldl (fun (done : List MCmd) x =>
    let at_ := done.foldl (fun t y => max t (y.spacing x.op)) cy
    let b := if x.op.kind = 0 then x.krow / 32 else if x.op.kind = 1 then x.krow else x.krow / 8
    done ++ [{ x with start := at_, block0 := b, fetched := 0, blk := [], late := false }]) []
  let s := s.modM c fun m => { m with cmds := go, halted := false }
  if (s.core c).m.dvalid then dropArrays s c else endLease s c

/-- A grant ripens four cycles after it (R284): the `mlease` completes, and stopped commands resume. -/
def leaseRipe (s : State) (c : Nat) : State :=
  let k := s.core c
  match k.m.granted with
  | none => s
  | some t =>
    if k.cy < t then s
    else
      let s := s.modM c fun m => { m with granted := none, leasing := none }
      let s := match k.m.leasing with
        | some sig => completeEntry s c 5 sig
        | none => s
      if k.m.halted && (k.engine 5).stop = .run then resumeCmds s c else s

/-- M's turn before the copies and its issue, in a cycle of its core. A lease of AGE 8,192 admits nothing more, and it ends (R31; log
entry 62). -/
def arraysTurn (s : State) (c : Nat) : State :=
  let k := s.core c
  let run := (k.engine 5).stop = .run
  let s := leaseRipe s c
  let s := if (s.core c).m.held && decide (8192 ≤ k.cy - (s.core c).m.grant) then endLease s c else s
  let m := (s.core c).m
  let s := if run && !m.request && !m.held && (m.leasing.isSome || m.halted && !m.cmds.isEmpty) then askLease s c else s
  if run && m.halted && m.held && m.granted.isNone then resumeCmds s c else s

/-- The ports that the rows of this cycle take: those of a clear, and of a drain that clears (R278, R292, R293). -/
def rowPorts (s : State) (c : Nat) : State :=
  let cy := (s.core c).cy
  eachCmd s c (fun x => x.rowDue cy) (fun s x =>
    let o := x.op
    let a := o.arrays.headD 0
    if o.kind = 2 then takePorts s (clusterOf c) a o.tile 0 256
    else if argF o.w 37 37 = 1 then takePorts s (clusterOf c) a o.tile (argF o.w 27 20) x.b.cols
    else s)

/-- The rows of drains and clears that are due in this cycle, those of a command that has just issued among them. They come after
every other write of the cycle, which a drain sees (R292). -/
def rowsTurn (s : State) (c : Nat) : State :=
  let cy := (s.core c).cy
  dropArrays (eachCmd s c (fun x => x.rowDue cy) (fun s x => if x.op.kind = 1 then drainStep s c x else clearStep s c x)) c

end Sys2Proof.Machine
end

