-- ==== Sys2Proof/Machine/Copy.lean ====
section
/-! DEFINITION. The meanings of the copy ring's commands, the steps of the copy channels, and the system copy port
(R79, R89 to R91, R272 to R279, R335). -/
namespace Sys2Proof.Machine

def Cluster.chan (u : Cluster) (ch : Nat) : Chan := mapGet Chan.reset ch u.chans
def State.modChan (s : State) (k ch : Nat) (f : Chan → Chan) : State :=
  s.modCluster k fun u => { u with chans := mapMod Chan.reset ch f u.chans }

/-! ### What a copy entry is -/

/-- Element widths in memory of a CONV code of `ccopy`, source and destination. -/
def convWidths (conv : Nat) : Nat × Nat :=
  match conv with
  | 0 => (1, 1) | 1 => (4, 4) | 2 => (2, 2) | 3 => (2, 2) | 4 => (4, 4) | 5 => (2, 2) | 6 => (1, 1) | 7 => (1, 1)
  | 8 => (4, 2) | 9 => (4, 2) | _ => (2, 4)
/-- One element converted (R274). -/
def convElem (conv mode x : Nat) : Nat :=
  match conv with
  | 8 => pack bf16 mode (unpack f32 x)
  | 9 => pack f16 mode (unpack f32 x)
  | 10 => pack f32 1 (unpack bf16 x)
  | 11 => pack f32 1 (unpack f16 x)
  | _ => x
/-- The exact value of a destination element, and its bytes. -/
def destValue (conv x : Nat) : FVal :=
  match conv with
  | 2 => unpack bf16 x | 3 => unpack f16 x | 8 => unpack bf16 x | 9 => unpack f16 x
  | 4 => ofIntV (signedOf 32 x) | 5 => ofIntV (signedOf 16 x) | 6 => ofIntV (signedOf 8 x) | 7 => ofIntV x
  | _ => unpack f32 x

/-- What an entry asks of its channel. -/
inductive CKind where
  /-- A stream of bytes into memory: destination, core field, bytes, fingerprint, barrier. -/
  | stream (dst core len : Nat) (fp bar : Bool)
  /-- Rows into a tile: array, tile, first row and column, rows, columns, address, core field, row stride, format. -/
  | rows (a t row col nr nc addr core stride fmt : Nat) (add : Bool)
  | expect (bar n : Nat)
  | arrive (bar : Nat)
  deriving DecidableEq, Repr

/-- Output rows and columns of a `cwin` (R275). -/
def winShape (w : EWord) (x3 : BitVec 56) : Nat × Nat :=
  (winCount (payF x3 13 0) (argF w 25 23) (argF w 22 20 + 1) (argF w 27 26 + 1),
   winCount (payF x3 27 14) (argF w 25 23) (argF w 19 17 + 1) (argF w 27 26 + 1))
/-- Elements of one destination row of a `cwin`. -/
def winRow (w : EWord) (x3 : BitVec 56) : Nat := (argF w 22 20 + 1) * (argF w 19 17 + 1) * payF x3 41 28
def winWidth (w : EWord) : Nat := 2 ^ argF w 29 28

def cKind (i : Instr) : Option CKind :=
  match i with
  | .ccopy w x1 x2 =>
    let (sw, dw) := convWidths (payF x1 55 52)
    some (.stream (payAddr x2) (argF w 35 33) (argF w 29 10 * 16 / sw * dw) (payF x2 54 54 = 1) (payF x2 55 55 = 1))
  | .cwin w _ x2 x3 => some (.stream (payAddr x2) (argF w 35 33) ((winShape w x3).1 * (winShape w x3).2 * winRow w x3 * winWidth w) false (argF w 16 16 = 1))
  | .caccst w x1 => some (.stream (payAddr x1) (argF w 35 33) (1024 * (argF w 22 15 + 1)) false false)
  | .caccld w x1 => some (.rows (argF w 32 32) (argF w 31 31) (argF w 30 23) 0 (argF w 22 15 + 1) 256 (payAddr x1) (argF w 35 33) 1024 0 false)
  | .cadd w x1 x2 =>
    some (.rows (argF w 32 32) (argF w 31 31) (argF w 30 23) (argF w 22 15) (payF x2 7 0 + 1) (payF x2 15 8 + 1) (payAddr x1) (argF w 35 33) (payF x2 39 16) (payF x1 55 52) true)
  | .cexp w x1 => some (.expect (payAddr x1) (argF w 35 10))
  | .carr _ x1 => some (.arrive (payAddr x1))
  | _ => none

/-- Bytes of an element of `cadd`. -/
def accBytes (fmt : Nat) : Nat := if fmt = 0 then 4 else 2

/-! ### The commands' own checks (R273 to R277) -/

/-- A core field must be zero when its address lies outside the core window (R273). -/
def coreField (va core : Nat) : Bool := core = 0 || spaceOf va = some .core

/-- The core fields of a copy command, under check 4 of R171. -/
def coreFieldsOk (i : Instr) : Bool :=
  match i with
  | .ccopy w x1 x2 => coreField (payAddr x1) (argF w 32 30) && coreField (payAddr x2) (argF w 35 33)
  | .cwin w x1 x2 _ => coreField (payAddr x1) (argF w 32 30) && coreField (payAddr x2) (argF w 35 33)
  | .caccld w x1 => coreField (payAddr x1) (argF w 35 33)
  | .caccst w x1 => coreField (payAddr x1) (argF w 35 33)
  | .cadd w x1 _ => coreField (payAddr x1) (argF w 35 33)
  | _ => true

/-- R192 on a barrier's address. -/
def barTrap (a : Nat) : Option Nat := objectTrap a 16 .cluster

/-- The checks at dispatch: the addresses, whose alignment R91 and R277 ask for in a fingerprint and in rows of a tile, then the overlap
of R274. -/
def cChecks (i : Instr) : Option Nat :=
  match i with
  | .ccopy w x1 x2 =>
    let (sw, dw) := convWidths (payF x1 55 52)
    let n := argF w 29 10 * 16
    let len := n / sw * dw
    let src := payAddr x1
    let dst := payAddr x2
    let rec_ := if payF x2 54 54 = 1 then [span (dst + len) 32 16] else []
    match spanTrap ([span src n 1, span dst len 1] ++ rec_) with
    | some cause => some cause
    | none =>
      if payF x2 54 54 = 1 && spaceOf dst ≠ spaceOf (dst + len) then some 0x13
      else if (spaceOf src ≠ some .core || argF w 32 30 = argF w 35 33) && spaceOf src = spaceOf dst && decide (src < dst + len) && decide (dst < src + n) then some 0x02
      else none
  | .cwin w x1 x2 x3 =>
    let wd := winWidth w
    let (oh, ow) := winShape w x3
    spanTrap [span (payAddr x1) (payF x3 13 0 * payF x3 27 14 * payF x3 41 28 * wd) 1, span (payAddr x2) (oh * ow * winRow w x3 * wd) 1]
  | .caccld w x1 => spanTrap [span (payAddr x1) (1024 * (argF w 22 15 + 1)) 16]
  | .caccst w x1 => spanTrap [span (payAddr x1) (1024 * (argF w 22 15 + 1)) 16]
  | .cadd _ x1 x2 => spanTrap [span (payAddr x1) (payF x2 7 0 * payF x2 39 16 + accBytes (payF x1 55 52) * (payF x2 15 8 + 1)) 1]
  | .cexp _ x1 => barTrap (payAddr x1)
  | .carr _ x1 => barTrap (payAddr x1)
  | _ => none

/-- The binding rules of R274 and R276 at dispatch: the barrier a BAR copy counts against, and the channel's binding
after it; none when a BAR copy finds no binding. -/
def bindBar (i : Instr) (bound : Option Nat) : Option (Option Nat × Option Nat) :=
  match cKind i with
  | some (.stream _ _ _ _ true) => if bound.isNone then none else some (bound, bound)
  | some (.expect a _) => some (none, some a)
  | _ => some (none, bound)

/-! ### Dispatch (R272) -/

/-- A dispatch by a core's copy ring of an entry of n words. -/
def copyEntry (ins : Instr) (w : EWord) (n : Nat) (ok : Bool) (round : RF) (s : State) : Out :=
  let c := s.cur.1
  let cl := clusterOf c
  let k := s.me
  match eFault 6 w (ok && coreFieldsOk ins) round with
  | some cause => .next (trapEngine s c 6 cause none)
  | none =>
    let ch := argF w 39 36
    let chan := (s.cluster cl).chan ch
    if !waitReady k 6 w.wait || 8 ≤ chan.queue.length then .next s
    else
      match cChecks ins, bindBar ins chan.bound with
      | some cause, _ => .next (trapEngine s c 6 cause none)
      | none, none => .next (trapEngine s c 6 0x43 none)
      | none, some (bar, bound) =>
        let addr := entryAddr k 6
        let mode := roundMode k 6 w.round
        let s := advanceHead (startEntry s c 6 n w.wait) c 6 n
        let e : CopyEnt := { ins := ins, word := (k.engine 6).word, addr := addr, core := c, live := true, port := false, ctx := k.ctx, mode := mode
                             signal := w.signal, bar := bar, start := (s.cluster cl).dcy + 2, rel := releaseOf s c 6, kern := k.kern }
        let s := s.modChan cl ch fun x => { x with queue := x.queue ++ [e], bound := bound }
        .next (s.modCore c fun x => { x with copies := x.copies + 1 }.modEng 6 fun g => { g with next := k.cy + 1 })

/-- R63, R168. -/
def execCSetrm (w : EWord) (s : State) : Out :=
  plainEntry w .set (fun s => s.modMe fun k => { k with rm := mapSet 6 w.round.toNat k.rm }) s
/-- R168. -/
def execCEnop (w : EWord) (s : State) : Out := plainEntry w .zero id s
/-- R274. -/
def execCcopy (w : EWord) (x1 x2 : BitVec 56) (s : State) : Out := copyEntry (.ccopy w x1 x2) w 3 (okCcopy w x1 x2) .code s
/-- R275. -/
def execCwin (w : EWord) (x1 x2 x3 : BitVec 56) (s : State) : Out := copyEntry (.cwin w x1 x2 x3) w 4 (okCwin w x1 x2 x3) .zero s
/-- R277. -/
def execCadd (w : EWord) (x1 x2 : BitVec 56) (s : State) : Out := copyEntry (.cadd w x1 x2) w 3 (okCadd w x1 x2) .code s
/-- R277. -/
def execCaccld (w : EWord) (x1 : BitVec 56) (s : State) : Out := copyEntry (.caccld w x1) w 2 (okCacc w x1) .zero s
/-- R277. -/
def execCaccst (w : EWord) (x1 : BitVec 56) (s : State) : Out := copyEntry (.caccst w x1) w 2 (okCacc w x1) .zero s
/-- R276. -/
def execCexp (w : EWord) (x1 : BitVec 56) (s : State) : Out := copyEntry (.cexp w x1) w 2 (okCexp w x1) .zero s
/-- R276. -/
def execCarr (w : EWord) (x1 : BitVec 56) (s : State) : Out := copyEntry (.carr w x1) w 2 (okCarr w x1) .zero s

/-! ### A channel stops, waits and releases -/

/-- A trap or suspension of a channel (R272, R335, R360, R362): it stops. A trap also stops the dispatching copy ring, and the port shows its cause; a
channel that waits for a page leaves the ring dispatching and the port busy. -/
def stopChan (s : State) (k ch : Nat) (e : CopyEnt) (cause kind : Nat) (addr info : W64) : State :=
  let s := postRecord s (dieOfCluster k)
    { seq := 0, core := if e.port then 0xFFFF else e.core, unit := 6, cause := cause, ctx := e.ctx, kind := kind, addr := addr
      info := info, cycle := cycleOf s k, owner := k, agent := 16 + ch, after := false }
  let s := s.modChan k ch fun x => { x with stop := .reporting }
  if kind = 1 then s
  else if e.port then s.modCluster k fun u => { u with cpState := 3, cpCause := cause }
  else if e.live then s.modEng e.core 6 fun g => { g with stop := .reporting }
  else s

/-- An access of a channel: a trap stops it, a stall is tried again in the next cycle, a walk is waited for. -/
def chanGot {α : Type} (s0 : State) (k ch : Nat) (e : CopyEnt) (g : Got α) (f : α → State → State) : State :=
  match g with
  | .ok a s => f a s
  | .trap cause info s => stopChan s k ch e cause 0 (recordAddr info e.addr) (recordInfo cause info e.word)
  | .stall m => noteStall s0 m
  | .miss va w x => (startWalk s0 (whoChan k ch e.ctx e.core) va w x (k, 256 + ch)).modChan k ch fun x => { x with stop := .walk }

/-- What a channel releases now. -/
def chanRel (s : State) (k ch : Nat) : Rel := relOf (chanId k ch) (raceGet s (whoChan k ch 0 0))

/-- The units that stalled on bytes that the watermark has passed acquire them (R106). -/
def passWaiters (s : State) (k ch : Nat) : State :=
  let x := (s.cluster k).chan ch
  let still (m : Nat × Nat × Nat × Nat) : Bool := inWatermark s k x m.2.2.1 m.2.2.2
  let r := chanRel s k ch
  let s := (x.waiters.filter fun m => !still m).foldl (fun s m =>
    if m.2.1 < 16 then acquireBy s m.1 m.2.1 1 r
    else
      let w := whoChan k (m.2.1 - 16) 0 m.1
      racePut s w (acquire s.now 1 r (raceGet s w))) s
  s.modChan k ch fun x => { x with waiters := x.waiters.filter still }

/-! ### Starting (R272, R278, R279) -/

/-- The source of an entry, for its timing. -/
def sourceOf (i : Instr) : Option Nat :=
  match i with
  | .ccopy _ x1 _ => some (payAddr x1)
  | .cwin _ x1 _ _ => some (payAddr x1)
  | .caccld _ x1 => some (payAddr x1)
  | .cadd _ x1 _ => some (payAddr x1)
  | _ => none

/-- A leg from a cluster's die to a device address of a context. -/
def chanLeg (s : State) (k ctx va : Nat) : Nat :=
  if spaceOf va = some .device then
    match pureAddr s ctx va false with
    | some pa => legCy (dieOfCluster k) (dieOfPa pa)
    | none => 0
  else 0

/-- Whether an entry reads or writes device memory. -/
def usesDevice (e : CopyEnt) : Bool :=
  (match sourceOf e.ins with
   | some a => spaceOf a = some .device
   | none => false) ||
  (match cKind e.ins with
   | some (.stream d _ _ _ _) => spaceOf d = some .device
   | _ => false)

/-- The cycles that a hit in the cluster's table adds to a channel's accesses, which follow one another behind them (R358). -/
def chanHit (s : State) (k ctx va : Nat) : Nat := if spaceOf va = some .device && (tlbFind ctx va (s.cluster k).tlb).isSome then 6 else 0

/-- Time from an entry's start to its first result (R278, R279, R351, R358). -/
def firstCycles (s : State) (k : Nat) (e : CopyEnt) : Lat :=
  let src := (sourceOf e.ins).elim 0 (chanLeg s k e.ctx)
  let hit := (sourceOf e.ins).elim 0 (chanHit s k e.ctx)
  match cKind e.ins with
  | some (.stream d _ _ _ _) => if usesDevice e then ⟨0, 160 + max src (chanLeg s k e.ctx d) + max hit (chanHit s k e.ctx d)⟩ else ⟨10, 0⟩
  | some (.rows _ _ _ _ _ _ _ _ _ _ _) => if usesDevice e then ⟨0, 160 + src + hit⟩ else ⟨8, 0⟩
  | _ => ⟨10, 0⟩

/-- The fingerprint under way as an entry starts: none unless it asks for one (R91). -/
def fpStart (i : Instr) : List Nat := match cKind i with
  | some (.stream _ _ _ true _) => [0, 0, 0, 0, 0]
  | _ => []

/-- R272: a channel starts the next entry of its queue: it acquires what the entry's enqueuing released (R106), and a stream sets
its watermark (R89). -/
def execCopyChannelStart (cl ch : Nat) (s : State) : Out :=
  let x := (s.cluster cl).chan ch
  let now := (s.cluster cl).dcy
  match x.queue with
  | [] => .refused .notEnabled
  | e :: _ =>
    if x.running || x.stop ≠ .run || decide (now < e.start) then .refused .notEnabled
    else
      let u := whoChan cl ch e.ctx e.core
      let s := racePut s u (acquire s.now 0 e.rel (raceGet s u))
      let s := s.modChan cl ch fun x => { x with running := true, done := 0, landed := 0, next := now + (firstCycles s cl e).dom, far := s.now + (firstCycles s cl e).far, fp := fpStart e.ins }
      .next (match cKind e.ins with
        | some (.stream d _ len _ _) => s.modChan cl ch fun x => { x with active := true, wm := BitVec.ofNat 64 d, last := BitVec.ofNat 64 (d + len) }
        | _ => s)

/-! ### Streams (R274, R275, R277) -/

/-- Element e of a `cwin` destination: its source element, or none for padding (R275). -/
def winSource (w : EWord) (x3 : BitVec 56) (e : Nat) : Option Nat :=
  let c := payF x3 41 28
  let kw := argF w 19 17 + 1
  let row := e / winRow w x3
  let i := e % winRow w x3
  let (_, ow) := winShape w x3
  let y : Int := (row / ow * (argF w 27 26 + 1) : Nat) - (argF w 25 23 : Nat) + (i / (kw * c) : Nat)
  let x : Int := (row % ow * (argF w 27 26 + 1) : Nat) - (argF w 25 23 : Nat) + (i / c % kw : Nat)
  if y < 0 ∨ x < 0 ∨ (payF x3 13 0 : Int) ≤ y ∨ (payF x3 27 14 : Int) ≤ x then none
  else some ((y.toNat * payF x3 27 14 + x.toNat) * c + i % c)

/-- n elements of a number, w bytes each. -/
def splitNat (v w n : Nat) : List Nat := (List.range n).map fun i => v / 256 ^ (w * i) % 256 ^ w
def joinElems (w : Nat) : List Nat → Nat
  | [] => 0
  | x :: r => x + 256 ^ w * joinElems w r

/-- The destination elements of n bytes from byte p of a stream, and their width. -/
def streamData (s : State) (k ch : Nat) (e : CopyEnt) (p n : Nat) : Got (Nat × List Nat) :=
  match e.ins with
  | .ccopy w x1 _ =>
    let conv := payF x1 55 52
    let (sw, dw) := convWidths conv
    let u := whoChan k ch e.ctx (k * 8 + argF w 32 30)
    (readRange s u w.cls.toNat (payAddr x1 + p / dw * sw) (n / dw * sw)).bind fun v s =>
      .ok (dw, (splitNat v sw (n / dw)).map (convElem conv e.mode)) s
  | .cwin w x1 _ x3 =>
    let wd := winWidth w
    let u := whoChan k ch e.ctx (k * 8 + argF w 32 30)
    let src := (List.range (n / wd)).map fun i => winSource w x3 (p / wd + i)
    (readList s u w.cls.toNat [] ((src.filterMap id).map fun i => (payAddr x1 + wd * i, wd))).bind fun l s =>
      let fill := src.foldl (fun (acc : List Nat × List Nat) o => match o with
        | some _ => (acc.1 ++ [acc.2.headD 0], acc.2.drop 1)
        | none => (acc.1 ++ [0], acc.2)) ([], l)
      .ok (wd, fill.1) s
  | .caccst w _ =>
    let key := accKey k (argF w 32 32) (argF w 31 31) (argF w 30 23) 0 + p / 4
    if rowBad s key (n / 4) then .trap 0x54 none s
    else .ok (4, (List.range (n / 4)).map fun i => (accAt s (key + i)).toNat) s
  | _ => .ok (1, []) s

/-- The fingerprint after one more element (R91): sum, sum of squares, NaNs, largest magnitude, elements. -/
def fpStep (conv mode : Nat) (f : List Nat) (x : Nat) : List Nat :=
  let v := destValue conv x
  let g (i : Nat) : Nat := f.getD i 0
  if isNan v then [g 0, g 1, min (g 2 + 1) (2 ^ 32 - 1), g 3, g 4 + 1]
  else
    [pack f64 mode (addV mode (unpack f64 (g 0)) v), pack f64 mode (addV mode (unpack f64 (g 1)) (mulV v v)), g 2,
     max (g 3) (pack f32 mode v.abs), g 4 + 1]

/-- One update of the bound barrier by landed bytes, releasing them (R79, R106). Bytes whose update has trapped stay to be counted (R363). -/
def barLand (s : State) (k ch : Nat) (e : CopyEnt) (n : Nat) (f : State → State) : State :=
  let counted (s : State) : State := f (s.modChan k ch fun x => { x with landed := 0 })
  match e.bar with
  | none => counted s
  | some a =>
    let w := whoChan k ch e.ctx e.core
    let pa := clusterBase k + (a - 0x000FFFFFFF000000)
    if rangePoisoned s pa 16 then stopChan s k ch e 0x54 0 e.addr 0
    else
      match barrierApply s w pa 0 (-(n : Int)) [chanRel s k ch] with
      | none => stopChan s k ch e 0x43 0 e.addr e.word
      | some (_, s) => counted s

/-- The 32-byte fingerprint record (R91): bytes 0 to 15, then bytes 16 to 31 in one write. -/
def writeFp (s : State) (k ch : Nat) (e : CopyEnt) (cls va core : Nat) (f : List Nat) : Got Unit :=
  let u := whoChan k ch e.ctx (k * 8 + core)
  let g (i : Nat) : Nat := f.getD i 0
  (writeRange s u cls va 16 (g 0 + 2 ^ 64 * g 1)).bind fun _ s => writeAtomic s u (va + 16) 16 (g 2 + 2 ^ 32 * g 3 + 2 ^ 64 * g 4)

/-- Writes the fingerprint record of a copy whose bytes have all landed, once (R91). -/
def landFp (s : State) (k ch : Nat) (e : CopyEnt) (cls dst core len : Nat) : State :=
  let x := (s.cluster k).chan ch
  if x.done < len || x.fp.isEmpty then s
  else chanGot s k ch e (writeFp s k ch e cls (dst + len) core x.fp) fun _ s => s.modChan k ch fun x => { x with fp := [] }

/-- R79, R89, R91, R279: the bytes of one cycle land and the watermark passes them, with the last ones the fingerprint record; the bound
barrier counts them after the operations of the cores. -/
def execCopyBytesLand (cl ch : Nat) (s : State) : Out :=
  let x := (s.cluster cl).chan ch
  let now := (s.cluster cl).dcy
  match x.queue with
  | [] => .refused .notEnabled
  | e :: _ =>
    match cKind e.ins with
    | some (.stream dst core len fp bar) =>
      if !x.running || x.stop ≠ .run || decide (now < x.next) || decide (s.now < x.far) || (decide (len ≤ x.done) && x.fp.isEmpty) then .refused .notEnabled
      else
        let n := min (if usesDevice e then 32 else 64) (len - x.done)
        let cls := match e.ins with
          | .ccopy w _ _ => w.cls.toNat
          | .cwin w _ _ _ => w.cls.toNat
          | .caccst w _ => w.cls.toNat
          | _ => 0
        .next (if len ≤ x.done then landFp s cl ch e cls dst core len else chanGot s cl ch e
          ((streamData s cl ch e x.done n).bind fun d s =>
            (writePart s (whoChan cl ch e.ctx (cl * 8 + core)) cls (dst + x.done) n (dst + len) (joinElems d.1 d.2)).bind fun _ s => .ok d.2 s)
          fun l s =>
            let conv := match e.ins with
              | .ccopy _ x1 _ => payF x1 55 52
              | _ => 0
            let s := s.modChan cl ch fun x =>
              { x with done := x.done + n, landed := if bar then x.landed + n else 0, wm := BitVec.ofNat 64 (dst + x.done + n), next := now + 1
                       fp := if fp then l.foldl (fpStep conv e.mode) x.fp else x.fp }
            landFp (passWaiters s cl ch) cl ch e cls dst core len)
    | _ => .refused .notEnabled

/-! ### Rows into a tile (R277, R278) -/

/-- R278: one row whose data are there is written, taking the copy port of its banks; the bank rules hold in that cycle alone. -/
def execAccRowWrite (cl ch : Nat) (s : State) : Out :=
  let x := (s.cluster cl).chan ch
  let u := s.cluster cl
  let now := u.dcy
  match x.queue with
  | [] => .refused .notEnabled
  | e :: _ =>
    match cKind e.ins with
    | some (.rows a t row col nr nc addr core stride fmt add) =>
      if !x.running || x.stop ≠ .run || decide (now < x.next) || decide (s.now < x.far) || decide (nr ≤ x.done) then .refused .notEnabled
      else
        let banks := (List.range ((col + nc - 1) / 16 + 1 - col / 16)).map fun i => bankKey a t (col / 16 + i)
        let b := accBytes fmt
        let key := accKey cl a t (row + x.done) col
        let cls := match e.ins with
          | .caccld w _ => w.cls.toNat
          | .cadd w _ _ => w.cls.toNat
          | _ => 0
        .next (chanGot s cl ch e (readRange s (whoChan cl ch e.ctx (cl * 8 + core)) cls (addr + x.done * stride) (nc * b)) fun v t' =>
          if banks.any u.cbanks.contains then s.modChan cl ch fun x => { x with next := now + 1 }
          else
            match banks.find? u.mbanks.contains with
            | some k => stopChan s cl ch e 0x20 0 e.addr (BitVec.ofNat 64 (a + 2 * t + 2 ^ 8 * (k % 16) + 2 ^ 16 * (row + x.done)))
            | none =>
              let s := t'.modCluster cl fun u => { u with cbanks := u.cbanks ++ banks }
              if add && rowBad s key nc then stopChan s cl ch e 0x54 0 e.addr 0
              else
                let vals := splitNat v b nc
                let l := ((List.range nc).zip vals).map fun p =>
                  if add then pk32 e.mode (addV e.mode (un32 (accAt s (key + p.1))) (unpack (if fmt = 0 then f32 else if fmt = 1 then bf16 else f16) p.2))
                  else BitVec.ofNat 32 p.2
                let per := if usesDevice e then (nc * b + 31) / 32 else 1
                (rowPut s key l).modChan cl ch fun x => { x with done := x.done + 1, next := now + per })
    | _ => .refused .notEnabled

/-! ### Completion (R89, R272, R276, R335) -/

/-- An entry leaves its channel: the watermark is inactive, the unit's interval rises, the dispatching core's tokens are
pushed with what the channel releases, which `rdv` acquires too, and the next entry can start in the next cycle (R106). -/
def finishCopy (s : State) (k ch : Nat) (e : CopyEnt) : State :=
  let r := chanRel s k ch
  let now := (s.cluster k).dcy
  let s := s.modChan k ch fun x =>
    { x with queue := (x.queue.drop 1).map fun y => { y with start := max y.start (now + 1) }, active := false, running := false, done := 0, landed := 0 }
  let s := passWaiters s k ch
  let u := whoChan k ch e.ctx e.core
  let s := racePut s u (bump 0xFFFF (raceGet s u))
  if e.port then s.modCluster k fun u => { u with cpState := 2 }
  else if e.live then
    let s := acquireBy s e.core 7 0 r
    let s := s.modCore e.core fun c => { c with copies := c.copies - 1 }
    progress (signalTokens s e.core 6 e.signal r) e.core
  else
    match kernelOf s e.kern with
    | some x => setKernel s e.kern { x with rels := x.rels ++ [r] }
    | none => s

/-- One barrier update by a channel's command (R276). -/
def chanBarrier (s : State) (k ch : Nat) (e : CopyEnt) (a arrive n : Nat) (rels : List Rel) : State :=
  let u := whoChan k ch e.ctx e.core
  let pa := clusterBase k + (a - 0x000FFFFFFF000000)
  if watermarkStall s u pa 16 then noteStall s (stallMark s u pa 16)
  else if rangePoisoned s pa 16 then stopChan s k ch e 0x54 0 e.addr 0
  else
    match barrierApply s u pa arrive n rels with
    | none => stopChan s k ch e 0x43 0 e.addr e.word
    | some (_, s) => finishCopy s k ch e

/-- R79, R89, R272: after the operations of the cores a channel's landed bytes are counted; the entry that it has done completes; a
barrier command has its effect. -/
def execCopyComplete (cl ch : Nat) (s : State) : Out :=
  let x := (s.cluster cl).chan ch
  let now := (s.cluster cl).dcy
  match x.queue with
  | [] => .refused .notEnabled
  | e :: _ =>
    if !x.running || x.stop ≠ .run then .refused .notEnabled
    else
      match cKind e.ins with
      | some (.stream _ _ len _ _) =>
        let count (f : State → State) : Out := .next (if x.landed = 0 then f s else barLand s cl ch e x.landed f)
        if x.done < len || !x.fp.isEmpty then (if x.landed = 0 then .refused .notEnabled else count id) else count fun s => finishCopy s cl ch e
      | some (.rows _ _ _ _ nr _ _ _ _ _ _) => if x.done < nr then .refused .notEnabled else .next (finishCopy s cl ch e)
      | some (.expect a n) => if now < x.next then .refused .notEnabled else .next (chanBarrier s cl ch e a 0 n [])
      | some (.arrive a) => if now < x.next then .refused .notEnabled else .next (chanBarrier s cl ch e a 1 0 [chanRel s cl ch])
      | none => .refused .notEnabled

end Sys2Proof.Machine
end

