-- ==== Sys2Proof/Machine/Prism.lean ====
section
/-! DEFINITION. The Prism front end of a cluster (R125 to R137, R393): fetching, multicasting, resolving votes and
joins, restarting; and the word a core issues next. -/
namespace Sys2Proof.Machine

/-! ### Fetching (R127, R131, R356) -/

/-- Who fetches: the front end through the cluster's table, in the context of its group, or a detached core. Agent 48 is no unit of
R112. -/
def whoFetch (s : State) (k party : Nat) : Who :=
  if party = 0 then ⟨(groupOf s k).headD (k * 8), k, 48, 0, (s.cluster k).fe.ctx⟩ else whoS s (k * 8 + party - 1)
/-- The walk party of a fetch. -/
def walkParty (k party : Nat) : Nat × Nat := if party = 0 then (k, 512) else (k * 8 + party - 1, 513)

def reqOf (s : State) (k party : Nat) : Option Nat := if party = 0 then (s.cluster k).fe.req else (s.core (k * 8 + party - 1)).pr.req
/-- Takes a party's request away, with what its fetch failed with (0: nothing). -/
def endReq (s : State) (k party failed : Nat) : State :=
  if party = 0 then s.modCluster k fun u => { u with fe := { u.fe with req := none, failed := failed } }
  else s.modPr (k * 8 + party - 1) fun p => { p with req := none, failed := failed }

/-- A party whose request can be accepted: it waits for no arrival and no walk. -/
def asks (s : State) (k party : Nat) : Bool :=
  (reqOf s k party).isSome && !((s.cluster k).fetches.any fun f => f.party = party) && !(s.walks.any fun w => w.parties.any fun x => x.who = walkParty k party)

/-- The parties that ask the port, in the cyclic order after the one accepted last (R127). -/
def askingParties (s : State) (k : Nat) : List Nat :=
  ((List.range 9).map fun i => ((s.cluster k).lastParty + 1 + i) % 9).filter fun p => asks s k p

/-- Time from acceptance to arrival (R127, R131): device memory lies outside the domain (R351). -/
def fetchCycles (k party pa : Nat) (hit : Bool) : Lat :=
  if hit then ⟨if party = 0 then 0 else 14, 0⟩ else ⟨0, 140 + legCy (dieOfCluster k) (dieOfPa pa)⟩

/-- Offers the port to parties in order; code lies in device memory, and a fetch elsewhere traps (R341): the first whose request translates is accepted and sent. DESIGN CHOICE (log entry 42): a
request whose translation is to be walked, or fails, has not used the port's cycle, and the next party has its turn in it (R127, R358). -/
def offerPort (s : State) (k : Nat) : List Nat → State
  | [] => s
  | p :: r =>
    match reqOf s k p with
    | none => offerPort s k r
    | some line =>
      match (if spaceOf (line * 64) = some .device then place s (whoFetch s k p) (line * 64) false true else .trap 0x10 none s) with
      | .trap cause info s => offerPort (endReq s k p (cause + 256 * info.getD 0)) k r
      | .stall _ => offerPort s k r
      | .miss va w x => offerPort (startWalk s (whoFetch s k p) va w x (walkParty k p)) k r
      | .ok q s =>
        let u := s.cluster k
        let hit := (mapFind (q.pa / 64) u.cache).isSome
        s.modCluster k fun u => { u with lastParty := p, fetches := u.fetches ++ [⟨p, line, q.pa / 64, u.dcy + q.extra + (fetchCycles k p q.pa hit).dom, s.now + (if hit then 0 else q.extra) + (fetchCycles k p q.pa hit).far, false⟩] }

/-- One cycle of the fetch port (R127). -/
def fetchPort (s : State) (k : Nat) : State := offerPort s k (askingParties s k)

/-- The sixteen words of a line. -/
def lineWords (b : List Byte) : List (BitVec 32) := (List.range 16).map fun i => BitVec.ofNat 32 (bytesNat ((b.drop (4 * i)).take 4))

/-- R127, R131: a requested line returns; a poisoned one fails the fetch (R367), and one in the part of a copy that has not landed
waits for it (R90). -/
def execFetchLineArrival (cl party : Nat) (s : State) : Host.Outcome State Fault Refusal :=
  match (s.cluster cl).fetches.find? fun f => f.party = party && f.due ≤ (s.cluster cl).dcy && f.far ≤ s.now with
  | none => .refused .notEnabled
  | some f =>
    let pa := f.phys * 64
    let late := watermarkStall s (whoFetch s cl party) pa 64
    let s := s.modCluster cl fun u => { u with fetches := (u.fetches.filter (· ≠ f)) ++ if late then [{ f with due := u.dcy + 1 }] else [] }
    .next (
      if late then s
      else if reqOf s cl party ≠ some f.line then s
      else if rangePoisoned s pa 64 then endReq s cl party (poisonCause pa)
      else
        let ((b, _), s) := cacheLine s cl f.phys
        let l : PLine := ⟨f.line, lineWords b⟩
        let s := endReq s cl party 0
        if party = 0 then s.modCluster cl fun u => { u with fe := { u.fe with line := some l } }
        else s.modPr (cl * 8 + party - 1) fun p => { p with pbuf := (l :: p.pbuf.filter fun x => x.line ≠ l.line).take 64 })

/-- The front end asks for the line of its next instruction. -/
def frontEndAsk (s : State) (k : Nat) : State :=
  let f := (s.cluster k).fe
  let held : Bool := match f.line with
    | some l => l.line = f.pc.toNat / 64
    | none => false
  if f.idle || f.voting.isSome || f.failed ≠ 0 || held || f.req.isSome || (groupOf s k).isEmpty then s
  else s.modCluster k fun u => { u with fe := { u.fe with req := some (f.pc.toNat / 64) } }

/-- The fetch port's turn (R127): the front end's request is made, one request is accepted, and a line that the front end
finds in the cluster cache is there at once. -/
def fetchTurn (s : State) (k : Nat) : State :=
  let s := fetchPort (frontEndAsk s k) k
  match execFetchLineArrival k 0 s with
  | .next t => t
  | _ => s

/-! ### Multicasting (R126, R129) -/

/-- A voting point (R129). -/
def isVoting : Option Instr → Bool
  | some (.br g _) => g ≠ 0
  | some (.call g _) => g ≠ 0
  | some (.jr _ _) => true
  | some (.callr _ _) => true
  | some (.ret _) => true
  | some (.eret _) => true
  | some (.detach _) => true
  | some (.join _ _ _) => true
  | _ => false

/-- Where the stream goes on after an instruction that is no voting point: a branch or call under p0 is taken. -/
def streamNext (i : Option Instr) (pc : W64) : W64 :=
  match i with
  | some (.br _ o) => pc + (o.signExtend 64 <<< 2)
  | some (.call _ o) => pc + (o.signExtend 64 <<< 2)
  | _ => pc + 4

/-- R126: one instruction into the buffer of every bound core, while each has a free entry. A failed fetch is multicast in
the instruction's place, and the front end stops. -/
def execFrontEndMulticast (cl : Nat) (s : State) : Host.Outcome State Fault Refusal :=
  let f := (s.cluster cl).fe
  let g := groupOf s cl
  let room := g.all fun c => (s.core c).pr.ibuf.length < 32
  let put (s : State) (e : IEnt) : State := g.foldl (fun s c => s.modPr c fun p => { p with ibuf := p.ibuf ++ [e] }) s
  if f.idle || f.voting.isSome || g.isEmpty || !room then .refused .notEnabled
  else if f.failed ≠ 0 then
    .next ((put s ⟨f.pc, 0, f.failed⟩).modCluster cl fun u => { u with fe := { u.fe with idle := true, failed := 0 } })
  else
    match f.line with
    | none => .refused .notEnabled
    | some l =>
      if l.line ≠ f.pc.toNat / 64 then .refused .notEnabled
      else
        let w := l.words.getD (f.pc.toNat / 4 % 16) 0
        let i := decodeScalar w
        let fe := if isVoting i then { f with voting := some f.pc } else { f with pc := streamNext i f.pc }
        .next ((put s ⟨f.pc, w, 0⟩).modCluster cl fun u => { u with fe := fe })

/-! ### Votes (R129, R130, R132, R133) -/

/-- A core goes on after a vote: as the vote's park says, or issuing after the given cycles, when the instruction's own time is over (R208). -/
def afterVote (s : State) (c lat : Nat) (v : Vote) : State :=
  s.modCore c fun k =>
    { k with pr := { k.pr with vote := none }
             su := { k.su with next := max v.hold (k.cy + lat), wait := match v.park with
               | some (m, d) => .park m d
               | none => .idle } }

/-- The bound cores' votes. -/
def votesOf (s : State) (k : Nat) : List (Nat × Vote) := (groupOf s k).filterMap fun c => (s.core c).pr.vote.map fun v => (c, v)

/-- The address of the largest group; on a tie, of the group with the lowest core (R130). -/
def majority (l : List (Nat × Vote)) : W64 :=
  let size (a : W64) : Nat := (l.filter fun e => e.2.next = a).length
  (l.foldl (fun (b : Option W64) e => match b with
    | none => some e.2.next
    | some a => if size a < size e.2.next then some e.2.next else b) none).getD 0

/-- The front end continues at an address, or is idle when nobody is bound. -/
def continueAt (s : State) (k : Nat) (pc : W64) : State :=
  let none_ := (groupOf s k).isEmpty
  s.modCluster k fun u => { u with fe := { u.fe with pc := pc, idle := none_, voting := none, resolveAt := none, joining := none } }

/-- A join with a true guard retires: progress of its strand (R353), and no part of an unchanged spin (R182). -/
def joinRetired (s : State) (c : Nat) : State :=
  s.modCore c fun k => { k with wd := { k.wd with prog := true, tainted := false }, su := { k.su with spin := noteSpin .other k.su.spin } }

/-- Binds a core parked at a join (R133, R135). -/
def bindParked (s : State) (c : Nat) (x : W64) : State :=
  (joinRetired s c).modCore c fun k =>
    { k with pr := { k.pr with bound := true, parked := false, ibuf := [], vote := none, req := none, failed := 0 }
             su := { k.su.setPred k.pr.joinPd.toNat true with pc := x + 4, wait := .idle, next := k.cy + 1 } }

/-- The cores of a roster that are parked at a join at x. -/
def parkedAt (s : State) (k : Nat) (x : W64) : List Nat := (rosterOf s k).filter fun c => (s.core c).su.wait = .join x.toNat

/-- A bound join at x resolves (R133, R134): parked cores bind, and each core with a true guard learns whether the group
is whole. -/
def joinResolve (s : State) (k : Nat) (x : W64) : State :=
  let votes := votesOf s k
  let s := (parkedAt s k x).foldl (fun s c => bindParked s c x) s
  let whole := groupOf s k = rosterOf s k
  let s := votes.foldl (fun s e =>
    let s := if e.2.guard then (joinRetired s e.1).modS e.1 fun u => u.setPred e.2.pd.toNat whole else s
    (afterVote s e.1 1 e.2).modS e.1 fun u => { u with pc := x + 4 }) s
  let s := continueAt s k (x + 4)
  s.modCluster k fun u => { u with fe := { u.fe with log := (x :: u.fe.log).take 16, count := u.fe.count + 1 } }

/-- Every missing core is parked at x (R133). -/
def joinReady (s : State) (k : Nat) (x : W64) : Bool :=
  (rosterOf s k).all fun c => (s.core c).pr.bound || (s.core c).su.wait = .join x.toNat

/-- The second cycle after the last parking has come: a parking counts as an issue at the vote (R129, R133). -/
def joinSettled (s : State) (k : Nat) (x : W64) : Bool := (parkedAt s k x).all fun c => (s.core c).su.next ≤ (s.core c).cy

/-- A bound core leaves its group by a vote: it issues its first private instruction two cycles later (R130, R132). -/
def leaveGroup (s : State) (e : Nat × Vote) : State :=
  afterVote (detachCore s e.1) e.1 2 e.2

/-- R130, R132, R133, R393: a vote resolves, or a waiting bound join finds every missing core parked. -/
def execVoteResolve (cl : Nat) (s : State) : Host.Outcome State Fault Refusal :=
  let s := voteCheck s cl
  let f := (s.cluster cl).fe
  match f.joining, f.resolveAt, f.voting with
  | some (x, _), _, _ => if joinReady s cl x && joinSettled s cl x then .next (joinResolve s cl x) else .refused .notEnabled
  | none, some d, some x =>
    if (s.cluster cl).dcy < d then .refused .notEnabled
    else
      let votes := votesOf s cl
      .next (
        if votes.any fun e => e.2.join then
          if votes.all fun e => !e.2.guard then
            continueAt (votes.foldl (fun s e => (afterVote s e.1 1 e.2).modS e.1 fun u => { u with pc := x + 4 }) s) cl (x + 4)
          else
            let t := ((votes.head?.map fun (e : Nat × Vote) => e.2.t).getD 0).toNat
            let dead := if t = 0x1FFF then none else some ((s.cluster cl).dcy + 8 * t)
            let s := s.modCluster cl fun u => { u with fe := { u.fe with resolveAt := none, joining := some (x, dead) } }
            if joinReady s cl x || t = 0 then joinResolve s cl x else s
        else if votes.any fun e => e.2.leaves then
          let s := votes.foldl (fun s e => if e.2.leaves then leaveGroup s e else afterVote s e.1 1 e.2) s
          continueAt s cl (x + 4)
        else
          let a := majority votes
          let s := votes.foldl (fun s e => if e.2.next = a then afterVote s e.1 1 e.2 else leaveGroup s e) s
          continueAt s cl a)
  | _, _, _ => .refused .notEnabled

/-- R133: the timeout of a waiting bound join has passed. -/
def execJoinTimeout (cl : Nat) (s : State) : Host.Outcome State Fault Refusal :=
  match (s.cluster cl).fe.joining with
  | some (x, some d) => if d ≤ (s.cluster cl).dcy then .next (joinResolve s cl x) else .refused .notEnabled
  | _ => .refused .notEnabled

/-- The address a core is parked at. -/
def parkAddr (s : State) (c : Nat) : Option Nat := match (s.core c).su.wait with
  | .join x => some x
  | _ => none

/-- R135: an idle front end whose whole roster is parked restarts at the address held by the most cores, and fetches there in the
context of the first core that binds. DESIGN CHOICE (log entry 67): parked cores of two contexts bind into one group all the same, and at a join the group keeps
its context. -/
def execFrontEndRestart (cl : Nat) (s : State) : Host.Outcome State Fault Refusal :=
  let r := rosterOf s cl
  let at_ := r.map fun c => parkAddr s c
  if r.isEmpty || !(groupOf s cl).isEmpty || at_.any Option.isNone then .refused .notEnabled
  else
    let l := at_.filterMap id
    let size (a : Nat) : Nat := (l.filter (· = a)).length
    let x : W64 := BitVec.ofNat 64 (l.foldl (fun b a => if size b < size a then a else b) (l.headD 0))
    let ctx := (s.core ((parkedAt s cl x).headD (cl * 8))).ctx
    let s := (continueAt ((parkedAt s cl x).foldl (fun s c => bindParked s c x) s) cl (x + 4))
    .next (s.modCluster cl fun u => { u with fe := { u.fe with ctx := ctx, line := none, req := none, failed := 0 } })

/-- What the front end does by itself in a cycle: with nobody bound it is idle, and votes that a leaving core had held up
are counted again (R129, R136). -/
def frontEndCheck (s : State) (k : Nat) : State :=
  if (groupOf s k).isEmpty then
    s.modCluster k fun u => { u with fe := { u.fe with idle := true, voting := none, resolveAt := none, joining := none, req := none, failed := 0 } }
  else voteCheck s k

/-! ### The word a core issues next -/

/-- What S of a core finds at its pc. -/
inductive SFetch where
  | word (w : BitVec 32)
  | failed (cause info : Nat)
  | wait (s : State)

/-- A bound core issues from its buffer, a detached core from its private one, asking for the line it misses (R126,
R131). -/
def fetchS (s : State) (c : Nat) : SFetch :=
  let k := s.core c
  if k.pr.bound then
    match k.pr.ibuf with
    | [] => .wait s
    | e :: _ => if e.fault ≠ 0 then .failed (e.fault % 256) (e.fault / 256) else .word e.word
  else if k.pr.failed ≠ 0 then .failed (k.pr.failed % 256) (k.pr.failed / 256)
  else
    match k.pr.pbuf.find? fun l => l.line = k.su.pc.toNat / 64 with
    | some l => .word (l.words.getD (k.su.pc.toNat / 4 % 16) 0)
    | none => .wait (if k.pr.req = some (k.su.pc.toNat / 64) then s else s.modPr c fun p => { p with req := some (k.su.pc.toNat / 64) })

end Sys2Proof.Machine
end

