-- ==== Sys2Proof/Machine/Faults.lean ====
section
/-! DEFINITION. The end of a translation walk (R357, R358), suspensions (R360), and invalidation (R359). -/
namespace Sys2Proof.Machine

/-! ### Waking and suspending a party of a walk -/

/-- A party whose translation is there goes on. -/
def wakeParty (s : State) (p : Nat × Nat) : State :=
  if p.2 = 0 then
    match (s.core p.1).su.wait with
    | .walk => s.modS p.1 fun u => { u with wait := .idle }
    | _ => s
  else if p.2 < 7 then s.modEng p.1 p.2 fun g => if g.stop = .walk then { g with stop := .run } else g
  else if 256 ≤ p.2 && p.2 < 512 then s.modChan p.1 (p.2 - 256) fun x => if x.stop = .walk then { x with stop := .run } else x
  else if 768 ≤ p.2 then spillHeap s (p.2 - 768) p.1
  else s

/-- A party is suspended with a cause (R360): only the unit that needs the translation stops. -/
def suspendParty (s : State) (ctx cause level : Nat) (x : Waiter) : State :=
  let p := x.who
  let info := walkInfo level x.write x.fetch
  let a : W64 := BitVec.ofNat 64 x.va
  if p.2 = 0 then
    match (s.core p.1).su.wait with
    | .walk => reportS (detachCore s p.1) p.1 cause 1 0 a (some info)
    | _ => s
  else if p.2 = 5 then
    let mine (r : DrainRow) : Bool := x.write && decide (r.va ≤ x.va) && decide (x.va < r.va + r.n)
    let t := s.modM p.1 fun m => { m with stores := m.stores.map fun r => if mine r then { r with bad := true } else r }
    let at_ := match (s.core p.1).m.stores.find? mine with
      | some r => r.id
      | none => ((s.core p.1).m.cmds.find? (·.late)).elim 0 (·.id)
    if (s.core p.1).mir.st = .idle then s.modM p.1 fun m => { m with stores := m.stores.filter fun r => !mine r }
    else if (s.core p.1).m.cmds.isEmpty ∨ ((s.core p.1).engine 5).stop ≠ .run then t else stopM t p.1 cause 1 at_ a (BitVec.ofNat 64 info)
  else if p.2 < 7 then
    if ((s.core p.1).engine p.2).stop = .walk then stopEngine s p.1 p.2 cause 1 a (some info) false else s
  else if p.2 < 512 then
    match ((s.cluster p.1).chan (p.2 - 256)).queue with
    | e :: _ => stopChan s p.1 (p.2 - 256) e cause 1 a (BitVec.ofNat 64 info)
    | [] => s
  else if p.2 = 512 then endReq s p.1 0 (cause + 256 * info)
  else if p.2 = 514 then s.modDie p.1 fun d => { d with unmapped := (ctx, x.va / 65536, s.now) :: d.unmapped.filter fun y => decide (s.now ≤ y.2.2 + 1) }
  else if 768 ≤ p.2 then heapFault s (p.2 - 768) p.1 cause 1 x.va info
  else endReq s (clusterOf p.1) (laneOf p.1 + 1) (cause + 256 * info)

/-- The cores' tables that a walk's parties use. -/
def partyCores (l : List Waiter) : List Nat := (l.filterMap fun p => if p.who.2 < 7 ∨ p.who.2 = 513 then some p.who.1 else none).eraseDups
/-- The table of the cluster, the command processor or the pool unit that a walk is for takes a translation. -/
def fillTables (s : State) (w : Walk) (t : Tlb) : State :=
  if w.cluster < 160 then
    s.modCluster w.cluster fun k =>
      { k with tlb := tlbAdd 2048 t k.tlb, ctlb := (partyCores w.parties).foldl (fun m c => mapMod [] c (tlbAdd 64 t) m) k.ctlb }
  else if w.cluster < 164 then s.modDie w.die fun d => { d with tlb := tlbAdd 64 t d.tlb }
  else s.modDie w.die fun d => { d with ptlb := tlbAdd 64 t d.ptlb }

/-- R357, R358: a walk ends: in a leaf, which the tables take and its parties go on with, or in a suspension. -/
def execTranslationWalkDone (id : Nat) (s : State) : Host.Outcome State Fault Refusal :=
  match s.walks.find? fun w => w.id = id with
  | none => .refused .notEnabled
  | some w =>
    let s := { s with walks := s.walks.filter fun x => x.id ≠ id }
    .next (match walkOf s w.ctx w.va with
    | .leaf t _ => w.parties.foldl (fun s p => wakeParty s p.who) (fillTables s w t)
    | .fail cause level _ => w.parties.foldl (fun s p => suspendParty s w.ctx cause level p) s)

/-! ### Invalidation (R359) -/

/-- Whether a translation is one that an invalidation names. -/
def invHits (w : BitVec 64) (t : Tlb) : Bool :=
  t.ctx = w.toNat % 65536 &&
    (w.msb || (let va := w.toNat / 65536 % 2 ^ 36 * 65536
               t.va ≤ va && va < t.va + t.size))

/-- Whether an invalidation names the translation of a fetch on its way: the whole page of every entry that it removes counts. -/
def invFetch (s : State) (w : BitVec 64) (k : Nat) (f : Fetch) : Bool :=
  let u := s.cluster k
  (whoFetch s k f.party).ctx = w.toNat % 65536 && (w.msb || f.line * 64 / 65536 = w.toNat / 65536 % 2 ^ 36 ||
    (u.tlb ++ u.ctlb.flatMap fun x => x.2).any fun t => invHits w t && t.va ≤ f.line * 64 && f.line * 64 < t.va + t.size)

/-- R359: every table of every die drops the entries. BUSY clears once the broadcast has reached every die and the fetches that such
an entry translated have arrived; every other access performs as it issues (log entry 5). -/
def invalidate (s : State) (w : BitVec 64) : State :=
  let drop (l : List Tlb) : List Tlb := l.filter fun t => !invHits w t
  { s with clusters := s.clusters.map (fun e => (e.1, { e.2 with tlb := drop e.2.tlb, ctlb := e.2.ctlb.map (fun x => (x.1, drop x.2)), fetches := e.2.fetches.map fun f => { f with inv := f.inv || invFetch s w e.1 f } }))
           dies := s.dies.map (fun e => (e.1, { e.2 with tlb := drop e.2.tlb, ptlb := drop e.2.ptlb }))
           trBusy := some (s.now + 290) }

/-- A write of TR.INV: while BUSY is set it stalls its writer, and is performed when BUSY has cleared (R359). -/
def trInv (s : State) (w : BitVec 64) : State := if s.trBusy.isSome then { s with trWait := s.trWait ++ [w] } else invalidate s w
/-- R359. -/
def execTrInv (w : BitVec 64) (s : State) : Host.Outcome State Fault Refusal := windowed s (.next (trInv s w))

/-- Whether BUSY can clear: the broadcast's time is over, and no fetch that it names is on its way. -/
def trReady (s : State) : Bool :=
  (match s.trBusy with
   | some d => decide (d ≤ s.now)
   | none => false) && !(s.clusters.any fun k => k.2.fetches.any Fetch.inv)

/-- R359: BUSY clears, and the oldest stalled write goes on. -/
def execTrInvComplete (s : State) : Host.Outcome State Fault Refusal :=
  if trReady s then
    match s.trWait with
    | [] => .next { s with trBusy := none }
    | w :: r => .next (invalidate { s with trWait := r } w)
  else .refused .notEnabled

end Sys2Proof.Machine
end

