-- ==== Sys2Proof/Machine/Area.lean ====
section
/-! DEFINITION. The Mirror area and the core image (R328 to R331): where each piece of a core's state lies. The places
of the sections are the manual's; the order of bytes inside a section is log entry 11. -/
namespace Sys2Proof.Machine

/-! ### Fields of an area -/

/-- A field of an area: offset, width in bytes, value. -/
abbrev Fld := Nat × Nat × Nat

/-- A list of values of one width, one after another. -/
def flds (off width step : Nat) (l : List Nat) : List Fld := l.zipIdx.map fun e => (off + step * e.2, width, e.1)
def lanesNat (l : Lanes) : Nat := joinElems 4 ((List.range 64).map fun i => (l.getD i 0).toNat)
def natLanes (v : Nat) : Lanes := (splitNat v 4 64).map (BitVec.ofNat 32)
/-- A number of up to 256 bytes read through a reader. -/
abbrev Reader := Nat → Nat → Nat
def rdFlds (rd : Reader) (off width step n : Nat) : List Nat := (List.range n).map fun i => rd (off + step * i) width

/-- Cycles from the next cycle of a core to a cycle of it (R325). -/
def remain (k : Core) (due : Nat) : Nat := due - (k.cy + 1)

/-! ### Registers that have a layout of their own -/

/-- PRISM.STATE (R128). -/
def prismState (s : State) (c : Nat) : Nat :=
  let k := clusterOf c
  let bits (l : List Nat) : Nat := (l.map fun i => 2 ^ laneOf i).sum
  let p := (s.core c).pr
  (if p.bound then 1 else 0) + (if p.parked then 2 else 0) + bits (rosterOf s k) * 2 ^ 8 + bits (groupOf s k) * 2 ^ 16
/-- M.LEASE (R285). -/
def leaseWord (k : Core) : Nat :=
  let m := k.m
  let held (a : Nat) : Nat := if m.grants a then 1 else 0
  held 0 + held 1 * 2 + m.desig * 4 + (if m.dvalid then 16 else 0) + (if m.held then min 8192 (k.cy - m.grant) else m.age) * 2 ^ 10 + m.used * 2 ^ 24
/-- L0.PROG, L1.PROG and W.PROG (R261). -/
def progWord (k : Core) (e : Nat) : Nat :=
  match k.runOf e with
  | none => (mapFind e k.prog).elim 0 fun p => 2 ^ 63 + p.2 % 2 ^ 24 * 2 ^ 32 + p.1
  | some r => 2 ^ 63 + r.metaPos % 2 ^ 24 * 2 ^ 32 + r.elem
/-- A progress record of M (R291). -/
def cmdProg (x : MCmd) : Nat := 2 ^ 63 + x.op.kind * 2 ^ 61 + x.krow * 2 ^ 40 + x.wrow * 2 ^ 32 + x.dmax.toNat
/-- XTn.STATE (R267). -/
def xtWord (b : XtBank) : Nat := (if b.full then 2 ^ 63 else 0) + b.blk * 2 ^ 32 + b.format * 2 ^ 16 + b.nent
/-- A descriptor's 32 bytes (R85). -/
def descFlds (off : Nat) (d : Desc) : List Fld :=
  [(off, 8, d.base.toNat), (off + 8, 8, d.ebase.toNat), (off + 16, 4, d.rows), (off + 20, 4, d.cols), (off + 24, 4, d.stride), (off + 28, 1, d.format),
   (off + 29, 1, d.gen), (off + 30, 1, (if d.valid then 1 else 0) + if d.readOnly then 2 else 0)]
def rdDesc (rd : Reader) (off : Nat) : Desc :=
  let f := rd (off + 30) 1
  { valid := f % 2 = 1, readOnly := f / 2 % 2 = 1, gen := rd (off + 29) 1, format := rd (off + 28) 1, stride := rd (off + 24) 4, cols := rd (off + 20) 4
    rows := rd (off + 16) 4, ebase := BitVec.ofNat 64 (rd (off + 8) 8), base := BitVec.ofNat 64 (rd off 8), inflight := 0 }

/-! ### The sections -/

/-- The header (R328), with VALID as given. -/
def fHeader (s : State) (c : Nat) (valid cluster : Bool) (npend : Nat) : List Fld :=
  [(1, 1, 1), (4, 4, 0x27000), (8, 2, c), (10, 2, (s.core c).ctx), (12, 4, (s.core c).mir.fcy.toNat),
   (16, 1, (if valid then 1 else 0) + if cluster then 2 else 0), (17, 1, npend)]

/-- The operands of a stalled `trecv`, `bwait` or `dwait`. -/
def stalledOperands (s : State) (k : Core) : List Fld :=
  match decodeScalar k.su.word with
  | some (.trecv _ _ _ _) => [(0x318, 8, k.su.word.toNat)]
  | some (.bwait _ a b) => [(0x320, 8, (k.su.reg a.toNat).toNat), (0x328, 8, (k.su.reg b.toNat).toNat)]
  | some (.dwait _ _ _) => flds 0x330 2 2 (((kernelOf s k.kern).elim [] (·.prods)).take 4)
  | _ => []

/-- The results of S that land in T_f or later, which the area holds as pending scalar writes (R174, R328): those of a pool
instruction first, then, of the others, those that land last; there is room for four (log entry 52). What still comes from device memory counts its pulses (R351). -/
def inFlightResults (now : Nat) (k : Core) : List PendWrite :=
  let u := k.su
  let dues := u.ready ++ (u.far.filter fun e => decide (now < e.2)).map fun e => (e.1, k.cy + (e.2 - now))
  let rest := dues.filter fun e => decide (k.cy < e.2) && !u.pend.any fun p => p.reg = e.1
  let all := (rest.mergeSort fun a b => b.2 ≤ a.2).map fun e =>
    (⟨e.1, if e.1 < 32 then u.reg e.1 else if u.pred (e.1 - 32) then 1 else 0, e.2⟩ : PendWrite)
  (u.pend ++ all).take 4

/-- S (R328). -/
def fScalar (s : State) (c : Nat) : List Fld :=
  let k := s.core c
  let u := k.su
  let stalled : Bool := match u.wait with
    | .idle => u.steps ≠ 0
    | _ => true
  flds 0x100 8 8 ((List.range 32).map fun r => (u.reg r).toNat) ++
  [(0x200, 8, u.pc.toNat), (0x208, 1, u.p.toNat), (0x210, 8, u.ras.length)] ++ flds 0x218 8 8 (u.ras.map (·.toNat)) ++
  [(0x298, 8, u.rspill.toNat), (0x2A0, 8, u.epc.toNat), (0x2A8, 8, u.cause.toNat), (0x2B0, 8, if u.inh then 1 else 0)] ++
  ((inFlightResults s.now k).zipIdx.flatMap fun e => [(0x2B8 + 16 * e.2, 8, e.1.value.toNat), (0x2C0 + 16 * e.2, 1, e.1.reg), (0x2C2 + 16 * e.2, 2, remain k e.1.due), (0x2C4 + 16 * e.2, 1, 1)]) ++
  (if stalled then [(0x2F8, 4, u.word.toNat), (0x2FE, 2, u.steps)]
   else if (inFlightResults s.now k).isEmpty then [] else [(0x2F8, 4, u.word.toNat), (0x2FC, 1, 1)]) ++
  [(0x308, 8, prismState s c), (0x310, 4, k.rint.1), (0x314, 4, k.rint.2)] ++ (if stalled then stalledOperands s k else [])

/-- The engines (R328). -/
def fEngines (k : Core) : List Fld :=
  (([1, 2, 3, 4, 5, 6] : List Nat).zipIdx.flatMap fun e =>
    let r := (k.engine e.1).ring
    let o := 0x400 + 48 * e.2
    if !r.declared then []
    else flds o 8 8 [r.base, r.size, (if r.isStatic then 1 else 0), r.head, r.tail, if r.forked then 1 else 0]) ++
  flds 0x520 8 8 [progWord k 1, progWord k 2, progWord k 3, (k.m.cmds.head?.map cmdProg).getD 0, leaseWord k] ++
  flds 0x548 8 8 (([4, 3, 5, 6] : List Nat).map fun e => mapGet 1 e k.rm)

/-- The 42 pairs of units that have a token queue (R19). -/
def tokenPairs : List (Nat × Nat) := (List.range 7).flatMap fun a => ((List.range 7).filter (· ≠ a)).map fun b => (a, b)

/-- The queues (R328). -/
def fQueues (k : Core) : List Fld :=
  flds 0x800 1 1 (tokenPairs.map fun e => (k.tokens e.1 e.2).length) ++
  [(0x830, 8, k.q.net.length), (0x838, 8, k.q.arrivals.length)] ++
  flds 0x840 1 1 ((List.range 8).map fun q => (mapGet [] q k.q.dq).length) ++ flds 0x848 1 1 ((List.range 4).map fun q => (mapGet [] q k.q.sq).length) ++
  [(0x850, 8, k.q.inbox.length)] ++
  (k.q.inbox.zipIdx.flatMap fun e => [(0x858 + 16 * e.2, 8, e.1.value.toNat), (0x860 + 16 * e.2, 8, e.1.tag)]) ++
  [(0x1158, 8, k.q.msgs.length)] ++
  (k.q.msgs.zipIdx.flatMap fun e => [(0x1160 + 16 * e.2, 8, e.1.payload.toNat), (0x1168 + 16 * e.2, 8, e.1.sender.toNat)])

/-- The race agents of a core in the area's order (R328). -/
def raceAgents : List Nat := [0, 1, 2, 3, 5]
def fRace (k : Core) : List Fld :=
  raceAgents.zipIdx.flatMap fun a =>
    let r := mapGet RaceUnit.reset a.1 k.race
    let o := 0x1800 + 200 * a.2
    [(o, 4, r.ivl.toNat), (o + 4, 1, if r.evicted then 1 else 0)] ++
    r.tab.zipIdx.flatMap fun e => [(o + 8 + 8 * e.2, 2, e.1.unit), (o + 10 + 8 * e.2, 1, e.1.scope), (o + 11 + 8 * e.2, 1, 1), (o + 12 + 8 * e.2, 4, e.1.ivl.toNat)]

/-- V's registers and control (R328). -/
def fVector (k : Core) : List Fld :=
  (k.v.v.map fun e => (0x1C00 + 256 * e.1, 256, lanesNat e.2)) ++ (k.v.m.map fun e => (0x5C00 + 8 * (e.1 - 1), 8, e.2.toNat)) ++
  (k.v.k.map fun e => (0x5C38 + 4 * e.1, 4, e.2.toNat)) ++
  (k.v.q.map fun e => (0x5C80 + 128 * e.1, 128, joinElems 2 ((List.range 64).map fun i => (e.2.getD i 0).toNat % 65536))) ++
  [(0x6480, 8, k.v.res.toNat), (0x6488, 4, k.v.loop.toNat), (0x6490, 8, k.v.iter.toNat), (0x6498, 4, k.v.iterJ.toNat)] ++
  flds 0x64A0 2 2 ((List.range 8).map fun q => (mapGet [] q k.v.defer).length)

/-- A pending landing (R329): lanes, remaining cycles, kind, target, slot, value. -/
structure PRec where
  lanes : Nat
  remain : Nat
  kind : Nat
  target : Nat
  slot : Nat
  value : Nat
  deriving DecidableEq, Repr

/-- The place of a reserved slot in its store queue. -/
def slotIndex (k : Core) (q id : Nat) : Nat := ((mapGet [] q k.q.sq).findIdx? fun x => x.id = id).getD 0

/-- The data of a store-queue element as 64 words and enables; a narrowed element shows its mantissas, and its
exponents in the high halves of lanes 0 and 1. -/
def sqNat : SqData → Nat × Nat
  | .plain l en => (lanesNat l, en.toNat)
  | .block _ mant e0 e1 out =>
    let lane (i : Nat) : Nat := ((mant.getD i 0) % 65536).toNat + (if i = 0 then e0.toNat * 2 ^ 16 else if i = 1 then e1.toNat * 2 ^ 16 else 0)
    (joinElems 4 ((List.range 64).map lane), (out.map fun e => 2 ^ e.1).sum)

/-- The data of a store-queue element of the kind of an old one from 64 words and enables. The area has no place for the values of a
narrowed element's outliers: the old ones stay, and a new one is its word (log entry 11). -/
def natSq (old : SqData) (v en : Nat) : SqData :=
  match old with
  | .plain _ _ => .plain (natLanes v) (BitVec.ofNat 64 en)
  | .block m _ _ _ out =>
    let l := splitNat v 4 64
    .block m (l.map fun x => signedOf 16 (x % 65536)) (BitVec.ofNat 8 (l.getD 0 0 / 65536)) (BitVec.ofNat 8 (l.getD 1 0 / 65536))
      (((List.range 64).filter fun i => en.testBit i).map fun i => (i, ((out.find? fun e => e.1 = i).map (·.2)).getD (BitVec.ofNat 32 (l.getD i 0))))

/-- The record of a result that R329 has a kind for. -/
def targetRec (k : Core) (rem : Nat) : Target → Option PRec
  | .vreg r l en => some ⟨en.toNat, rem, 0, r, 0, lanesNat l⟩
  | .slot q id d => some ⟨(sqNat d).2, rem, 1, q, slotIndex k q id, (sqNat d).1⟩
  | .mask n v => some ⟨2 ^ 64 - 1, rem, 2, n, 0, v.toNat⟩
  | .qreg r l en => some ⟨en.toNat, rem, 3, r, 0, lanesNat l⟩
  | .res v => some ⟨2 ^ 64 - 1, rem, 4, 0, 0, v.toNat⟩
  | .inbox v => some ⟨2 ^ 64 - 1, rem, 5, 4, 0, v.toNat⟩
  | _ => none
def pendRecs (k : Core) : List PRec := k.v.landings.flatMap fun l => l.targets.filterMap (targetRec k (remain k l.due))
def fPending (k : Core) : List Fld :=
  (pendRecs k).zipIdx.flatMap fun e =>
    let o := 0x6C00 + 288 * e.2
    [(o, 8, e.1.lanes), (o + 8, 2, e.1.remain), (o + 10, 1, e.1.kind), (o + 11, 1, e.1.target), (o + 12, 1, e.1.slot), (o + 32, 256, e.1.value)]

/-- Data queues and store queues (R328). -/
def fStores (k : Core) : List Fld :=
  (k.q.dq.flatMap fun q => q.2.zipIdx.map fun e => (0xAC00 + 256 * (8 * q.1 + e.2), 256, lanesNat e.1.lanes)) ++
  (k.q.sq.flatMap fun q => q.2.zipIdx.flatMap fun e =>
    match e.1.data with
    | some d => [(0xEC00 + 288 * (8 * q.1 + e.2), 256, (sqNat d).1), (0xED00 + 288 * (8 * q.1 + e.2), 8, (sqNat d).2)]
    | none => [])

/-- 48 bytes of a coder lane or a checkpoint slot. -/
def slotFlds (o mode : Nat) (low : BitVec 33) (range pending pos fin count base cap : W32) (cache : Byte) (has : Bool) (flags : BitVec 4) : List Fld :=
  [(o, 8, low.toNat), (o + 8, 4, range.toNat), (o + 12, 4, pending.toNat), (o + 16, 4, pos.toNat), (o + 20, 4, fin.toNat), (o + 24, 4, count.toNat),
   (o + 28, 4, base.toNat), (o + 32, 4, cap.toNat), (o + 36, 1, cache.toNat), (o + 37, 1, mode), (o + 38, 1, if has then 1 else 0), (o + 39, 1, flags.toNat)]
def ckFlds (o : Nat) (x : CkSlot) : List Fld :=
  slotFlds o x.mode x.low x.range x.pending x.pos 0 x.count x.base x.cap x.cache x.hasCache x.flags ++ [(o + 40, 1, if x.valid then 1 else 0)]
def laneFlds (o : Nat) (x : CoderLane) : List Fld :=
  slotFlds o x.mode x.low x.range x.pending x.pos x.fin x.count x.base x.cap x.cache x.hasCache x.flags ++ ckFlds (o + 48) x.slot0 ++ ckFlds (o + 96) x.slot1
/-- Coder lanes, with the lane-state command in flight (R250, R328). -/
def fCoder (k : Core) : List Fld :=
  (k.v.coder.flatMap fun e => laneFlds (0x11000 + 288 * e.1) e.2) ++
  (k.v.landings.flatMap fun l => l.targets.flatMap fun t => match t with
    | .coder lanes _ _ => lanes.flatMap fun e =>
        laneFlds (0x11090 + 288 * e.1) e.2 ++ [(0x11090 + 288 * e.1 + 40, 1, 1), (0x11090 + 288 * e.1 + 41, 2, remain k l.due)]
    | _ => [])
def fCdf (k : Core) : List Fld :=
  k.v.cdf.flatMap fun e =>
    [(e.2.bank0, 0), (e.2.bank1, 1)].flatMap fun b =>
      let o := 0x15800 + 544 * (2 * e.1 + b.2)
      [(o, 2, b.1.n), (o + 2, 2, b.1.version), (o + 4, 1, if e.2.active = b.2 then 1 else 0),
       (o + 5, 1, if e.2.switch.isSome then 1 else 0), (o + 6, 2, (e.2.switch.map (remain k)).getD 0)] ++ flds (o + 16) 2 2 b.1.c
def fDefer (k : Core) : List Fld :=
  k.v.defer.flatMap fun q => q.2.zipIdx.flatMap fun e =>
    flds (0x19C00 + 16 * (256 * q.1 + e.2)) 4 4 [e.1.lane, e.1.a.toNat, e.1.b.toNat, e.1.c.toNat]
def fBanks (k : Core) : List Fld :=
  k.xt.flatMap fun e => (0x21C00 + 1040 * e.1, 8, xtWord e.2) :: flds (0x21C10 + 1040 * e.1) 4 4 (e.2.entries.map (·.toNat))

/-- The extension words of a command of M. -/
def cmdExts : Instr → List (BitVec 56)
  | .mmul _ x => [x]
  | .mmul2 _ x y => [x, y]
  | .mdrain _ x y => [x, y]
  | _ => []
/-- M's commands in progress (R291, R328). -/
def fCmds (k : Core) : List Fld :=
  k.m.cmds.zipIdx.flatMap fun e =>
    let o := 0x25D00 + 256 * e.2
    let x := e.1
    [(o, 8, cmdProg x), (o + 8, 8, x.word.toNat)] ++ flds (o + 16) 8 8 ((cmdExts x.ins).map fun p => (extWord p).toNat) ++
    (x.descs.zipIdx.flatMap fun d => descFlds (o + 32 + 32 * d.2) d.1.2) ++
    [(o + 128, 1, x.mode), (o + 129, 1, if x.op.arrays = [0] then 0 else if x.op.arrays = [1] then 1 else 2), (o + 130, 1, x.op.tile)]

/-- CLUSTER of the header (R328): a token on its way to the core is one that it has not popped. -/
def clusterBound (s : State) (c : Nat) : Bool :=
  let k := s.core c
  let object : Bool := match k.su.wait with
    | .stalled => (match decodeScalar k.su.word with
      | some (.bwait _ _ _) => true
      | some (.barr _ _ _) => true
      | some (.bexp _ _ _) => true
      | some (.done _ _) => true
      | _ => false)
    | _ => false
  k.rint.1 < k.rint.2 || !k.q.arrivals.isEmpty || !k.q.net.isEmpty || ((s.cluster (clusterOf c)).phases.any fun p => p.members.contains c) || object

/-- Every section but the header, in rising order of sections (R328). -/
def areaFlds (s : State) (c : Nat) : List Fld :=
  let k := s.core c
  fScalar s c ++ fEngines k ++ fQueues k ++ fRace k ++ fVector k ++ fPending k ++ fStores k ++ fCoder k ++ fCdf k ++ fDefer k ++ fBanks k ++ fCmds k

/-! ### Reading the sections back (R332) -/

def rdRing (rd : Reader) (i : Nat) (old : Eng) (cy : Nat) : Eng :=
  let o := 0x400 + 48 * i
  let v (j : Nat) : Nat := rd (o + 8 * j) 8
  if v 1 = 0 then { Eng.reset with next := cy + 1 }
  else
    { old with next := cy + 1, stop := .run
               ring := { old.ring with declared := true, base := v 0, size := v 1, isStatic := v 2 % 2 = 1, head := v 3, tail := v 4, forked := v 5 % 2 = 1, start := cy + 1
                                       words := old.ring.words.map fun w => (w.1, { w.2 with ready := cy + 1 }) } }

/-- n tokens, with the releases the model remembers of them. -/
def padToks (n cy : Nat) (l : List Tok) : List Tok := (List.range n).map fun i => ⟨(l.getD i ⟨Rel.none, 0⟩).rel, cy + 1⟩

def rdQueues (rd : Reader) (old : Queues) (cy : Nat) : Queues :=
  let tok := (tokenPairs.zipIdx.map fun e => (tokKey e.1.1 e.1.2, padToks (rd (0x800 + e.2) 1) cy (mapGet [] (tokKey e.1.1 e.1.2) old.tok))).filter fun e => !e.2.isEmpty
  let sq (q : Nat) : List SqSlot :=
    let l := mapGet [] q old.sq
    (List.range (rd (0x848 + q) 1)).map fun i =>
      let o := 0xEC00 + 288 * (8 * q + i)
      match l[i]? with
      | some x => { x with data := x.data.map fun d => natSq d (rd o 256) (rd (o + 256) 8) }
      | none => ⟨2 ^ 32 + 8 * q + i, some (.plain (natLanes (rd o 256)) (BitVec.ofNat 64 (rd (o + 256) 8))), Rel.none⟩
  { tok := tok, net := padToks (rd 0x830 8) cy old.net, arrivals := (List.range (rd 0x838 8)).map fun i => old.arrivals.getD i Rel.none
    inbox := (List.range (rd 0x850 8)).map fun i => ⟨BitVec.ofNat 64 (rd (0x858 + 16 * i) 8), rd (0x860 + 16 * i) 8, cy + 1⟩
    msgs := (List.range (rd 0x1158 8)).map fun i => ⟨BitVec.ofNat 64 (rd (0x1160 + 16 * i) 8), BitVec.ofNat 64 (rd (0x1168 + 16 * i) 8), ((old.msgs[i]?).map (·.rel)).getD Rel.none⟩
    dq := ((List.range 8).map fun q => (q, (List.range (rd (0x840 + q) 1)).map fun i => (⟨natLanes (rd (0xAC00 + 256 * (8 * q + i)) 256), cy + 1⟩ : DqElem))).filter fun e => !e.2.isEmpty
    sq := ((List.range 4).map fun q => (q, sq q)).filter fun e => !e.2.isEmpty }

/-- Renames the units of one core to those of another (R332); the copy channels, whose identifiers lie among those of their cluster's core 0, are
units of no core (R112). -/
def renameUnit (src tgt u : Nat) : Nat := if u / 32 = unitId src 0 / 32 && u % 32 < 16 then unitId tgt 0 + u % 32 else u
def renameRel (src tgt : Nat) (r : Rel) : Rel :=
  { r with unit := renameUnit src tgt r.unit, tab := r.tab.map fun e => { e with unit := renameUnit src tgt e.unit } }
def renameQueues (src tgt : Nat) (q : Queues) : Queues :=
  let t (x : Tok) : Tok := { x with rel := renameRel src tgt x.rel }
  { q with tok := q.tok.map fun e => (e.1, e.2.map t), net := q.net.map t, arrivals := q.arrivals.map (renameRel src tgt)
           sq := q.sq.map fun e => (e.1, e.2.map fun x => { x with rel := renameRel src tgt x.rel }) }

/-- The race state of a core's units; what V and the copy ring carry (agents 4, 6 and 7; log entry 16) has no place in an area, and is what the
model remembers. -/
def rdRace (rd : Reader) (src tgt : Nat) (old : SMap RaceUnit) : SMap RaceUnit :=
  let kept (a : Nat) : SMap RaceUnit := (old.filter fun e => e.1 = a).map fun e => (a, { e.2 with tab := e.2.tab.map fun x => { x with unit := renameUnit src tgt x.unit } })
  let unit (a : Nat × Nat) : Nat × RaceUnit :=
    let o := 0x1800 + 200 * a.2
    let r := mapGet RaceUnit.reset a.1 old
    let tab := ((List.range 16).filter fun i => rd (o + 11 + 8 * i) 1 = 1).map fun i =>
      (⟨renameUnit src tgt (rd (o + 8 + 8 * i) 2), BitVec.ofNat 32 (rd (o + 12 + 8 * i) 4), rd (o + 10 + 8 * i) 1, (r.tab.find? fun x => x.unit = rd (o + 8 + 8 * i) 2).bind (·.own)⟩ : REnt)
    (a.1, { r with ivl := BitVec.ofNat 32 (rd o 4), evicted := rd (o + 4) 1 % 2 = 1, tab := tab, touched := (0, 0) })
  (raceAgents.zipIdx.map unit).take 4 ++ kept 4 ++ (raceAgents.zipIdx.map unit).drop 4 ++ kept 6 ++ kept 7

def rdCk (rd : Reader) (o : Nat) : CkSlot :=
  { valid := rd (o + 40) 1 % 2 = 1, mode := rd (o + 37) 1 % 4, low := BitVec.ofNat 33 (rd o 8), range := BitVec.ofNat 32 (rd (o + 8) 4), cache := BitVec.ofNat 8 (rd (o + 36) 1), hasCache := rd (o + 38) 1 % 2 = 1
    pending := BitVec.ofNat 32 (rd (o + 12) 4), pos := BitVec.ofNat 32 (rd (o + 16) 4), count := BitVec.ofNat 32 (rd (o + 24) 4), base := BitVec.ofNat 32 (rd (o + 28) 4)
    cap := BitVec.ofNat 32 (rd (o + 32) 4), flags := BitVec.ofNat 4 (rd (o + 39) 1) }
def rdLane (rd : Reader) (o : Nat) : CoderLane :=
  let x := rdCk rd o
  { mode := x.mode, low := x.low, range := x.range, cache := x.cache, hasCache := x.hasCache, pending := x.pending, pos := x.pos, fin := BitVec.ofNat 32 (rd (o + 20) 4)
    count := x.count, base := x.base, cap := x.cap, flags := x.flags, slot0 := rdCk rd (o + 48), slot1 := rdCk rd (o + 96) }
def rdCdf (rd : Reader) (i cy : Nat) : CdfSlot :=
  let bank (b : Nat) : CdfBank :=
    let o := 0x15800 + 544 * (2 * i + b)
    let n := rd o 2 % 257
    { n := n, version := rd (o + 2) 2, c := if n = 0 then [] else rdFlds rd (o + 16) 2 2 (n + 1) }
  let o := 0x15800 + 1088 * i
  { bank0 := bank 0, bank1 := bank 1, active := if rd (o + 548) 1 % 2 = 1 then 1 else 0
    switch := if rd (o + 5) 1 % 2 = 1 then some (cy + 1 + rd (o + 6) 2) else none }

/-- The result of a pending-landing record: R329's kinds back as targets; a store-queue element is of the kind of the remembered one. -/
def recTarget (q : Queues) (old : Option Target) (r : PRec) : Target :=
  let v := natLanes r.value
  let en := BitVec.ofNat 64 r.lanes
  let w := BitVec.ofNat 64 r.value
  match r.kind with
  | 0 => .vreg r.target v en
  | 1 =>
    .slot r.target (((mapGet [] r.target q.sq)[r.slot]?).elim 0 (·.id)) (match old with
      | some (.slot _ _ d) => natSq d r.value r.lanes
      | _ => .plain v en)
  | 2 => .mask r.target w
  | 3 => .qreg r.target v en
  | 4 => .res w
  | _ => .inbox w
def rdRec (rd : Reader) (i : Nat) : PRec :=
  let o := 0x6C00 + 288 * i
  ⟨rd o 8, rd (o + 8) 2, rd (o + 10) 1, rd (o + 11) 1, rd (o + 12) 1, rd (o + 32) 256⟩
def isRecorded : Target → Bool
  | .vreg _ _ _ => true | .slot _ _ _ => true | .mask _ _ => true | .qreg _ _ _ => true | .res _ => true | .inbox _ => true
  | _ => false

/-- The coder state that is pending in an area, and the cycles until it lands (R328, R333). -/
def rdPendLanes (rd : Reader) : SMap CoderLane := ((List.range 64).filter fun i => rd (0x110B8 + 288 * i) 1 = 1).map fun i => (i, rdLane rd (0x11090 + 288 * i))
def rdPendRemain (rd : Reader) : Nat := (((List.range 64).filter fun i => rd (0x110B8 + 288 * i) 1 = 1).head?.map fun i => rd (0x110B9 + 288 * i) 2).getD 0

/-- The targets of one remembered landing with their remaining cycles, taking the next records for those that R329 holds and the pending
coder state for the coder's; the records left over. -/
def mergeTargets (q : Queues) (rd : Reader) : List Target → List PRec → List (Option Nat × Target) × List PRec
  | [], rs => ([], rs)
  | .coder _ ws init :: l, rs =>
    let x := mergeTargets q rd l rs
    let p := rdPendLanes rd
    ((if p.isEmpty then none else some (rdPendRemain rd), .coder p ws init) :: x.1, x.2)
  | t :: l, rs =>
    if !isRecorded t then
      let x := mergeTargets q rd l rs
      ((none, t) :: x.1, x.2)
    else
      match rs with
      | [] => mergeTargets q rd l []
      | r :: rs =>
        let x := mergeTargets q rd l rs
        ((some r.remain, recTarget q (some t) r) :: x.1, x.2)

/-- A remembered landing with its targets as the area has them: each lands at its own remaining count (R333), and the entry completes
with the last of them. -/
def placeLanding (cy : Nat) (l : Landing) (left : Nat) (ts : List (Option Nat × Target)) : List Landing :=
  let last := (ts.filterMap (·.1)).foldl max 0
  let last := if ts.any fun t => t.1.isSome then last else left
  ({ l with due := cy + 1 + last, targets := (ts.filter fun t => t.1.getD last = last).map (·.2), held := false } : Landing) ::
    (ts.filter fun t => t.1.getD last ≠ last).map fun t => { l with due := cy + 1 + t.1.getD last, targets := [t.2], signal := 0, isEntry := false, loop := none, held := false }

/-- The landings of a restored core: the remembered ones with the area's results, then records and a coder state of their own. -/
def mergeLandings (q : Queues) (rd : Reader) (shift cy : Nat) : List Landing → List PRec → List Landing
  | [], rs => rs.map fun r => { due := cy + 1 + r.remain, targets := [recTarget q none r], signal := 0, rel := Rel.none, isEntry := false, word := 0, addr := 0 }
  | l :: ls, rs =>
    let x := mergeTargets q rd l.targets rs
    placeLanding cy l (l.due - shift) x.1 ++ mergeLandings q rd shift cy ls x.2
/-- Whether a landing brings a coder state. -/
def Landing.toCoder (x : Landing) : Bool := x.targets.any fun t => match t with
  | .coder _ _ _ => true
  | _ => false
def rdLandings (rd : Reader) (old : VUnit) (oldCy : Nat) (q : Queues) (cy : Nat) : List Landing :=
  let l := mergeLandings q rd (oldCy + 1) cy old.landings ((List.range (rd 17 1)).map (rdRec rd))
  let alone : List Landing := if old.landings.any Landing.toCoder || (rdPendLanes rd).isEmpty then []
    else [{ due := cy + 1 + rdPendRemain rd, targets := [.coder (rdPendLanes rd) [] false], signal := 0, rel := Rel.none, isEntry := false, word := 0, addr := 0 }]
  (l ++ alone).foldl (fun m x => landInsert x m) []

def rdVector (rd : Reader) (old : VUnit) (oldCy : Nat) (q : Queues) (cy : Nat) : VUnit :=
  { old with
    v := ((List.range 64).map fun r => (r, natLanes (rd (0x1C00 + 256 * r) 256)))
    m := ((List.range 7).map fun i => (i + 1, BitVec.ofNat 64 (rd (0x5C00 + 8 * i) 8)))
    k := ((List.range 16).map fun i => (i, BitVec.ofNat 32 (rd (0x5C38 + 4 * i) 4)))
    q := ((List.range 16).map fun i => (i, (splitNat (rd (0x5C80 + 128 * i) 128) 2 64).map (BitVec.ofNat 32)))
    res := BitVec.ofNat 64 (rd 0x6480 8), loop := BitVec.ofNat 32 (rd 0x6488 4) &&& 0x80001FF8, iter := BitVec.ofNat 64 (rd 0x6490 8) &&& 0xFFFFFFFFFC000000, iterJ := BitVec.ofNat 32 (rd 0x6498 4)
    next := cy + 1
    landings := rdLandings rd old oldCy q cy
    defer := (List.range 8).map fun p => (p, (List.range (min 256 (rd (0x64A0 + 2 * p) 2))).map fun i =>
      let o := 0x19C00 + 16 * (256 * p + i)
      (⟨rd o 4, BitVec.ofNat 32 (rd (o + 4) 4), BitVec.ofNat 32 (rd (o + 8) 4), BitVec.ofNat 32 (rd (o + 12) 4)⟩ : DefRec))
    coder := (List.range 64).map fun i => (i, rdLane rd (0x11000 + 288 * i))
    cdf := (List.range 16).map fun i => (i, rdCdf rd i cy) }

/-- The pending scalar writes of an area. -/
def rdPend (rd : Reader) (cy : Nat) : List PendWrite :=
  ((List.range 4).filter fun i => rd (0x2C4 + 16 * i) 1 = 1).map fun i =>
    ⟨rd (0x2C0 + 16 * i) 1, BitVec.ofNat 64 (rd (0x2B8 + 16 * i) 8), cy + 1 + rd (0x2C2 + 16 * i) 2⟩

/-- S of a restored strand: an instruction recorded as not issued is tried again, and a pending write can be used when it lands
(R174, R333). -/
def rdScalar (rd : Reader) (old : SUnit) (cy : Nat) : SUnit :=
  { old with
    x := ((List.range 31).map fun i => (i + 1, BitVec.ofNat 64 (rd (0x108 + 8 * i) 8))).filter fun e => e.2 ≠ 0
    pc := BitVec.ofNat 64 (rd 0x200 8), p := BitVec.ofNat 8 (rd 0x208 1) ||| 1
    ras := (rdFlds rd 0x218 8 8 (min 16 (rd 0x210 8))).map (BitVec.ofNat 64)
    rspill := BitVec.ofNat 64 (rd 0x298 8), epc := BitVec.ofNat 64 (rd 0x2A0 8), cause := BitVec.ofNat 64 (rd 0x2A8 8), inh := rd 0x2B0 8 % 2 = 1
    pend := rdPend rd cy
    word := BitVec.ofNat 32 (rd 0x2F8 4), steps := rd 0x2FE 2
    ready := (rdPend rd cy).foldl (fun m p => mapSet p.reg p.due m) []
    far := [], next := cy + 1, performed := 0, farNext := 0, farDone := 0, spin := SpinRec.reset
    wait := if rd 0x2F8 4 ≠ 0 && rd 0x2FC 1 = 0 then .stalled else .idle }

/-- A command of M in progress, from its record. -/
def rdCmd (rd : Reader) (old : List MCmd) (i : Nat) : Option MCmd :=
  let o := 0x25D00 + 256 * i
  let p := rd o 8
  let w := BitVec.ofNat 64 (rd (o + 8) 8)
  let x (j : Nat) : BitVec 56 := xPayload (BitVec.ofNat 64 (rd (o + 16 + 8 * j) 8))
  let n := (extCount .m (cOp w).toNat).getD 0
  if p < 2 ^ 63 then none
  else
    match decodeEM (cOp w).toNat (eFields w) ((List.range n).map x) with
    | none => none
    | some ins =>
      match mOp ins with
      | none => none
      | some y =>
        let ds := y.handles.zipIdx.map fun h => (h.1 % 4096, rdDesc rd (o + 32 + 32 * h.2))
        some { ins := ins, word := w, addr := ((old[i]?).map (·.addr)).getD 0, signal := cSignal w, krow := p / 2 ^ 40 % 65536, wrow := p / 2 ^ 32 % 256, dmax := BitVec.ofNat 32 p
               descs := ds, mode := rd (o + 128) 1, start := 0, block0 := 0, fetched := 0, blk := [], late := false, tail := ⟨0, 0⟩
               id := ((old[i]?).map (·.id)).getD (2 ^ 64 + i) }

def rdMatrix (rd : Reader) (old : MUnit) : MUnit :=
  let l := rd 0x540 8
  let cmds := (List.range 6).filterMap (rdCmd rd old.cmds)
  { old with used := l / 2 ^ 24 % 128, age := l / 2 ^ 10 % 16384, dvalid := l / 16 % 2 = 1, desig := l / 4 % 4, held := false, request := false, granted := none
             cmds := cmds, halted := !cmds.isEmpty }

/-- ELEM and META of the part-done entries of L0, L1 and W (R261). -/
def rdProg (rd : Reader) : SMap (Nat × Nat) :=
  (([1, 2, 3] : List Nat).filter fun e => 2 ^ 63 ≤ rd (0x518 + 8 * e) 8).map fun e => (e, rd (0x518 + 8 * e) 8 % 2 ^ 32, rd (0x518 + 8 * e) 8 / 2 ^ 32 % 2 ^ 24)
/-- The access entries under way that the model remembers, at the place that the area gives; W still holds what it has popped (R311). -/
def rdRuns (rd : Reader) (old : SMap Run) (cy : Nat) : SMap Run :=
  old.filterMap fun e => (mapFind e.1 (rdProg rd)).map fun p =>
    (e.1, { e.2 with elem := p.1, metaPos := p.2, next := cy + 1, far := 0, pend := e.2.pend.map fun x => (⟨cy + 1, 0⟩, x.2) })

/-- A core restored from an area onto core `tgt` (R332): `old` is what the model remembers beside the area, `own` the target before.
The LOAD counts as the moment in which it detached (log entry 53). A rounding register takes the code that the area holds, a reserved one
too (log entry 54). -/
def rdCore (rd : Reader) (tgt : Nat) (count : Nat) (old own : Core) : Core :=
  let cy := own.cy
  let src := rd 8 2
  let q := rdQueues rd old.q cy
  { own with
    ctx := rd 10 2, kern := old.kern, stage := old.stage, lclus := old.lclus, lcount := old.lcount, cur := old.cur
    su := rdScalar rd old.su cy
    pr := { PrismCore.reset with bound := false, roster := true, mark := count }
    q := renameQueues src tgt q
    eng := ([1, 2, 3, 4, 5, 6] : List Nat).zipIdx.map fun e => (e.1, rdRing rd e.2 (old.engine e.1) cy)
    v := rdVector rd old.v old.cy q cy
    run := rdRuns rd old.run cy, prog := (rdProg rd).filter fun e => (mapFind e.1 old.run).isNone
    xt := (List.range 16).map fun b =>
      let w := rd (0x21C00 + 1040 * b) 8
      (b, { full := w.testBit 63, blk := w / 2 ^ 32 % 2 ^ 24, format := w / 2 ^ 16 % 256, nent := w % 512
            entries := (rdFlds rd (0x21C10 + 1040 * b) 4 4 (min 256 (w % 512))).map (BitVec.ofNat 32), clearedAt := 0 })
    m := { rdMatrix rd old.m with stores := own.m.stores ++ old.m.stores.filter fun r => !own.m.stores.contains r }
    rm := (([4, 3, 5, 6] : List Nat).zipIdx.map fun e => (e.1, rd (0x548 + 8 * e.2) 8 % 8)).mergeSort fun a b => a.1 ≤ b.1
    race := rdRace rd src tgt old.race
    wd := { Watch.reset with parks := old.wd.parks }
    rint := (rd 0x310 4, rd 0x314 4)
    copies := 0, firstCause := old.firstCause }

/-- The checks of ERR 5 (R332). -/
def inconsistent (rd : Reader) : Bool :=
  let ring (i : Nat) : Bool :=
    let v (j : Nat) : Nat := rd (0x400 + 48 * i + 8 * j) 8
    2 * v 1 ≤ v 3 && v 1 ≠ 0 || 2 * v 1 ≤ v 4 && v 1 ≠ 0
  let loop := rd 0x6488 4
  let iter := rd 0x6490 8
  (List.range 6).any ring || (List.range 42).any (fun i => 143 < rd (0x800 + i) 1) ||
    (loop.testBit 31 && (loop / 8 % 128 ≤ iter / 2 ^ 26 % 64 || iter / 2 ^ 32 + loop / 2 ^ 10 % 8 < rd 0x6498 4 + 1))

end Sys2Proof.Machine
end

