-- ==== Sys2Proof/Machine/Mirror.lean ====
section
/-! DEFINITION. The Mirror commands (R324 to R334) and the end of a SAVE (R327). -/
namespace Sys2Proof.Machine

/-! ### Memory behind a translated range -/

/-- Who performs the writes of the Mirror interface: no unit of the clusters (R331; log entry 19). -/
def mirWho : Who := ⟨0, 160, 0, 0, 0⟩

/-- A bulk change of n bytes at a physical address: shadow records and carried releases go, covered poison clears, parked
strands wake. -/
def bulkWrite (s : State) (pa n : Nat) (f : List Host.Cell → List Host.Cell) : State :=
  let s := { s with mem := f s.mem, arel := mapDelRange pa (pa + n) s.arel, shadow := mapDelRange (pa / 64) ((pa + n + 63) / 64) s.shadow }
  wakeParks (unpoison s pa n) pa n mirWho false

/-- Copies n bytes from one physical address to another. -/
def copyCells (src n dst : Nat) (m : List Host.Cell) : List Host.Cell :=
  (m.filter fun e => decide (src ≤ e.1) && decide (e.1 < src + n)).foldl (fun m e => memPut m (dst + (e.1 - src)) e.2) (memClear m dst n)

/-- The pieces of a virtual range of n bytes in the pages of a context: address, offset, bytes. -/
def pagePieces (base n : Nat) : List (Nat × Nat × Nat) :=
  (List.range ((base % 65536 + n - 1) / 65536 + 1)).map fun i =>
    let lo := if i = 0 then 0 else 65536 * i - base % 65536
    (base + lo, lo, min n (65536 * (i + 1) - base % 65536) - lo)

/-- The physical addresses of the pieces, up to the first one that does not translate. -/
def mappedPieces (s : State) (ctx : Nat) (write : Bool) : List (Nat × Nat × Nat) → List (Nat × Nat × Nat)
  | [] => []
  | (va, off, n) :: r =>
    match pureAddr s ctx va write with
    | none => []
    | some pa => (pa, off, n) :: mappedPieces s ctx write r

/-- The physical address of an offset of a mapped range. -/
def pieceAddr (l : List (Nat × Nat × Nat)) (off : Nat) : Nat :=
  match l.find? fun p => decide (p.2.1 ≤ off) && decide (off < p.2.1 + p.2.2) with
  | some (pa, o, _) => pa + (off - o)
  | none => 0
def pieceEnd (l : List (Nat × Nat × Nat)) : Nat := (l.map fun p => p.2.1 + p.2.2).foldl max 0

/-- Writes fields into a mapped range. -/
def putFld (pa : Nat → Nat) (m : List Host.Cell) (f : Fld) : List Host.Cell :=
  (List.range f.2.1).foldl (fun m i => memPut m (pa (f.1 + i)) (BitVec.ofNat 8 (f.2.2 / 256 ^ i))) m
def putFlds (pa : Nat → Nat) (fs : List Fld) (m : List Host.Cell) : List Host.Cell := fs.foldl (putFld pa) m
/-- A reader of a mapped range. -/
def areaReader (s : State) (l : List (Nat × Nat × Nat)) : Reader := fun off n =>
  (List.range n).foldr (fun i v => (memByte s.mem (pieceAddr l (off + i))).toNat + 256 * v) 0

def areaBytes : Nat := 0x27000
def imageBytes : Nat := 528384

/-! ### FREEZE (R325) -/

/-- What a freeze leaves of S's wait (R137, R174, R182): an instruction that has not had its effect is recorded as not issued and is
tried again; a park ends; a vote that is open has had its effect on the core, but for a join. -/
def frozenWait (k : Core) : SWait :=
  match k.su.wait with
  | .held n => .held n
  | .reporting => .reporting
  | .idle | .park _ _ | .passed => .idle
  | .vote => if (k.pr.vote.map Vote.join).getD false then .stalled else .idle
  | .stalled | .walk | .pool _ _ _ _ | .join _ | .bar _ _ => .stalled

/-- A wait on a barrier that its completion has released has had its effect (R79, R174): it acquires, and S goes on behind it. -/
def freezePassed (s : State) (c : Nat) : State :=
  let k := s.core c
  match k.su.wait, decodeScalar k.su.word with
  | .passed, some (.bwait _ a _) =>
    let pa := clusterBase (clusterOf c) + ((k.su.reg a.toNat).toNat - 0x000FFFFFFF000000)
    let s := (mapGet ⟨[], []⟩ pa (s.cluster (clusterOf c)).bars).done.foldl (fun s x => acquireBy s c 0 1 x) s
    s.modS c fun u => { u with pc := u.pc + 4 }
  | _, _ => s

/-- The tokens that copy entries have waited to push to a core are pushed when it is frozen (R326). -/
def freezeHeld (s : State) (c : Nat) : State :=
  let held := ((s.core c).engine 6).held
  held.foldl (fun s h => (pushTok s c 6 h.dest h.rel).getD s) (s.modCore c fun k => { k with eng := k.eng.map fun e => (e.1, if e.1 = 6 then { e.2 with held := [] } else e.2) })

/-- FREEZE takes effect: the next cycle of the domain is T_f, and no unit of the core issues in it or later. -/
def freezeCore (s : State) (c : Nat) : State :=
  let cl := clusterOf c
  let wait := frozenWait ((freezePool s c).core c)
  let s := detachCore (freezePassed (freezePool s c) c) c
  let s := s.modM c fun m => { m with halted := m.halted || !m.cmds.isEmpty, cmds := m.cmds.map fun x => { x with fetched := 0, blk := [], late := false } }
  let held := (s.core c).m.held
  let s := (endLease s c).modM c fun m => if held then { m with age := min 8192 ((s.core c).cy + 1 - m.grant) } else m
  let fcy := BitVec.ofNat 32 ((s.cluster cl).dcy + 1)
  let s := s.modCore c fun k =>
    { k with mir := { k.mir with st := .frozen, fcy := fcy }
             pr := { k.pr with parked := false, req := none, vote := none }
             su := { k.su with spin := SpinRec.reset, wait := wait }
             eng := k.eng.map fun e => (e.1, { e.2 with stop := if e.2.stop = .walk then .run else e.2.stop }) }
  let s := (freezeHeld s c).modCluster cl fun u => { u with fetches := u.fetches.filter fun f => f.party ≠ laneOf c + 1 }
  { s with walks := s.walks.map fun w => { w with parties := w.parties.filter fun p => !(p.who.1 = c && (decide (p.who.2 < 7) || p.who.2 = 513)) } }

/-- Undoes what the commands of M in progress hold, for a strand that ends (R87). -/
def dropCmds (s : State) (c : Nat) : State :=
  (s.core c).m.cmds.foldl (fun s x => modInflight s (s.core c).ctx (· - 1) x.descs) s

/-- Takes a core's records out of its die's lists (R360, R364). -/
def dropRecords (s : State) (c : Nat) : State :=
  let mine (r : FRec) : Bool := r.owner = c && decide (r.agent < 16)
  s.modDie (dieOf c) fun d => { d with queue := d.queue.filter fun r => !mine r, waiting := d.waiting.filter fun r => !mine r }

/-- Whether a saved core's last SAVE wrote the area at a physical address. -/
def savedHere (s : State) (c pa : Nat) : Bool :=
  (s.core c).mir.st = .saved && match (s.core c).mir.savedAt with
  | some (a, x) => pureAddr s x a.toNat false = some pa
  | none => false

/-- DISCARD (R324, R348): ends the strand without the waits of `exit`; a saved core's area is no longer VALID. -/
def discardCore (s : State) (c cause : Nat) : State :=
  let k := s.core c
  let s := match k.mir.st, k.mir.savedAt with
    | .saved, some (a, x) =>
      match pureAddr s x a.toNat true with
      | some pa => pokeBytes s mirWho (pa + 16) [memByte s.mem (pa + 16) &&& 0xFE#8] false
      | none => s
    | _, _ => s
  let s := faultTag s k.kern cause
  let s := dropRecords (dropCmds (endLease (withdrawPool s c) c) c) c
  endStrand (bumpCore s c) c (coreRels s c)

/-! ### SAVE (R326, R327) -/

/-- Whether an engine waits for an acknowledgement. -/
def Stop.acked : Stop → Bool
  | .held _ => true
  | .reporting => true
  | _ => false

/-- Whether everything the core had in flight has finished (R326). The elements that a trapped or suspended W has popped stay with it until it is
resumed (R360), and so do the rows that M could not store. -/
def saveReady (s : State) (c : Nat) : Bool :=
  let k := s.core c
  k.copies = 0 && (match k.runOf 3 with
    | some r => r.pend.isEmpty || (k.engine 3).stop.acked
    | none => true) && (k.m.stores.all (·.bad)) && inFlight s c = 0

/-- Writes the area (R327), or as much as translates; whether all of it did. -/
def writeArea (s : State) (c : Nat) : State × Bool :=
  let k := s.core c
  let l := mappedPieces s k.ctx true (pagePieces k.mir.area.toNat areaBytes)
  let n := pieceEnd l
  let pa := pieceAddr l
  let clear (m : List Host.Cell) : List Host.Cell := l.foldl (fun m p => if p.2.1 = 0 then memClear m (p.1 + 256) (p.2.2 - 256) else memClear m p.1 p.2.2) m
  let touch (s : State) (f : List Host.Cell → List Host.Cell) : State := l.foldl (fun s p => bulkWrite s p.1 p.2.2 id) { s with mem := f s.mem }
  let cl := clusterBound s c
  let flags : Fld := (16, 1, if cl then 2 else 0)
  if n = 0 then (s, false)
  else if n < areaBytes then
    (touch s fun m => putFlds pa (flags :: (areaFlds s c).filter fun f => f.1 + f.2.1 ≤ n) (clear m), false)
  else
    (touch s fun m => putFlds pa (fHeader s c true cl (pendRecs k).length) (memClear (putFlds pa (areaFlds s c) (clear m)) (pa 0) 256), true)

/-- R327: the end of a SAVE. The area is written, header last; the core leaves ROSTER, and its waiting records are cancelled
(R360). A translation failure leaves the core FROZEN with ERR 3. -/
def execSaveWrite (core : Nat) (s : State) : Out :=
  let k := s.core core
  if k.mir.saving.isNone || k.mir.st ≠ .frozen || !saveReady s core then .refused .notEnabled
  else
    let r := writeArea s core
    let s := r.1.modMir core fun m => { m with busy := false, saving := none }
    .next (
      if r.2 then
        let s := { dropRecords s core with saves := mapSet (saveKey core k.ctx k.mir.fcy.toNat) (s.core core) s.saves }
        s.modCore core fun x =>
          { x with mir := { x.mir with st := .saved, savedAt := some (x.mir.area, x.ctx) }, pr := { x.pr with roster := false }
                   su := { x.su with wait := .idle }, eng := x.eng.map fun e => (e.1, { e.2 with stop := .run }) }
      else s.modMir core fun m => { m with err := 3 })

/-! ### The core image (R331) -/

/-- The full-empty bits of a core as image bytes. -/
def fullCells (s : State) (c : Nat) : List (Nat × Nat) :=
  let lo := coreBase c / 16
  (s.full.filter fun e => decide (lo ≤ e.1) && decide (e.1 < lo + 32768)).foldl (fun m e =>
    mapMod 0 (524288 + (e.1 - lo) / 8) (fun v => v ||| 2 ^ ((e.1 - lo) % 8)) m) []

/-- Writes the image of a core to the pieces of its place; bits and bytes alike (R331). -/
def imageOut (s : State) (c : Nat) (p : Nat × Nat × Nat) : State :=
  let (pa, off, n) := p
  let bytes := min n (524288 - off)
  bulkWrite s pa n fun m =>
    let m := memClear (copyCells (coreBase c + off) bytes pa m) (pa + bytes) (n - bytes)
    (fullCells s c).foldl (fun m e => if decide (off ≤ e.1) && decide (e.1 < off + n) then memPut m (pa + (e.1 - off)) (BitVec.ofNat 8 e.2) else m) m

/-- Reads one piece of an image into a core's memory and full-empty bits: writes of no unit (R331). -/
def imageIn (s : State) (c : Nat) (p : Nat × Nat × Nat) : State :=
  let (pa, off, n) := p
  let bytes := min n (524288 - off)
  let s := if bytes = 0 then s else bulkWrite s (coreBase c + off) bytes (copyCells pa bytes (coreBase c + off))
  let lo := coreBase c / 16 + 8 * (off + bytes - 524288)
  if bytes = n then s
  else
    let full := mapDelRange lo (lo + 8 * (n - bytes)) s.full
    { s with full := (List.range (n - bytes)).foldl (fun m i =>
        let b := memByte s.mem (pa + bytes + i)
        if b = 0 then m else (List.range 8).foldl (fun m j => if b.getLsbD j then mapSet (lo + 8 * i + j) none m else m) m) full }

/-- Whether a piece of the source of an image is poisoned: it cannot be read (R367). -/
def piecesPoisoned (s : State) (l : List (Nat × Nat × Nat)) : Bool := l.any fun p => rangePoisoned s p.1 p.2.2

/-! ### The commands (R324) -/

/-- A command written to MIR.CTL, with the CTX field written beside it: dropped while BUSY, refused where the table does not allow it,
else accepted. -/
def mirCommand (s : State) (c cmd ctx : Nat) (allowed : MirState → Bool) (f : State → State) : Out :=
  let m := (s.core c).mir
  if m.busy || !allowed m.st then .next (s.modMir c fun m => { m with err := 1 })
  else .next (f (s.modMir c fun m => { m with cmd := cmd, ctx := ctx, err := 0 }))

/-- The CTX field of a core's MIR.CTL, which a row of the table that names a core alone writes as it stands. -/
def ctxField (s : State) (c : Nat) : Nat := (s.core c).mir.ctx

/-- R324: command 0 changes nothing and clears ERR. -/
def noneWith (core ctx : Nat) (s : State) : Out := mirCommand s core 0 ctx (fun _ => true) id
def execMirNone (core : Nat) (s : State) : Out := windowed s (noneWith core (ctxField s core) s)
/-- R325. -/
def freezeWith (core ctx : Nat) (s : State) : Out :=
  mirCommand s core 1 ctx (fun t => t = .running || t = .frozen) fun s => if (s.core core).mir.st = .frozen then s else freezeCore s core
def execFreeze (core : Nat) (s : State) : Out := windowed s (freezeWith core (ctxField s core) s)
/-- R327: SAVE waits, BUSY set, until R326 is complete. -/
def saveWith (core ctx : Nat) (s : State) : Out :=
  mirCommand s core 2 ctx (fun t => t = .frozen) fun s => s.modMir core fun m => { m with busy := true, saving := some 0 }
def execSave (core : Nat) (s : State) : Out := windowed s (saveWith core (ctxField s core) s)
/-- R331. -/
def imgoutWith (core ctx : Nat) (s : State) : Out :=
  mirCommand s core 3 ctx (fun t => t = .saved) fun s =>
    let l := mappedPieces s (s.core core).ctx true (pagePieces (s.core core).mir.img.toNat imageBytes)
    let ok := l.takeWhile fun p => !rangePoisoned s (coreBase core + p.2.1) (min p.2.2 (524288 - p.2.1))
    let s := ok.foldl (fun s p => imageOut s core p) s
    if pieceEnd ok = imageBytes then s else s.modMir core fun m => { m with err := 3 }
def execImgout (core : Nat) (s : State) : Out := windowed s (imgoutWith core (ctxField s core) s)
/-- R331: refused on a core that a launch holds (R330). -/
def imginWith (core ctx : Nat) (s : State) : Out :=
  mirCommand s core 4 ctx (fun t => t = .idle && !(s.core core).launched) fun s =>
    let l := mappedPieces s ctx false (pagePieces (s.core core).mir.img.toNat imageBytes)
    let ok := l.takeWhile fun p => !rangePoisoned s p.1 p.2.2
    let s := ok.foldl (fun s p => imageIn s core p) s
    if pieceEnd ok = imageBytes then s else s.modMir core fun m => { m with err := 3 }
def execImgin (core ctx : Nat) (s : State) : Out := windowed s (imginWith core ctx s)

/-- The range interval that LOAD gives its target: the area's, without the part that the unit has split off the saved core's
slot since (R27, R332; log entry 30). -/
def keptInterval (here : Bool) (slot area : Nat × Nat) : Nat × Nat := if here && decide (slot.1 < slot.2) then (area.1, min area.2 slot.2) else area

/-- LOAD's checks (R332): the code of the first that fails. -/
def loadError (s : State) (core ctx : Nat) (l : List (Nat × Nat × Nat)) (rd : Reader) : Nat :=
  let src := rd 8 2
  if pieceEnd l < areaBytes || piecesPoisoned s l then 3
  else if rd 16 1 % 2 = 0 || rd 4 4 ≠ areaBytes || rd 10 2 ≠ ctx then 3
  else if rd 1 1 ≠ 1 || rd 0 1 ≠ 0 then 2
  else if rd 16 1 / 2 % 2 = 1 && clusterOf src ≠ clusterOf core then 4
  else if inconsistent rd then 5
  else if (s.core core).rint.1 < (s.core core).rint.2 && !(src = core && savedHere s src (pieceAddr l 0)) then 6
  else 0

/-- The strand that a SAVED core holds leaves it for another one: its core no longer names it, but it stays a member of its network, and saved
(R20, R30, R334). -/
def leaveCore (s : State) (c : Nat) : State :=
  let name := awayName (s.core c) c
  { s with away := mapSet name (s.core c) s.away
           clusters := s.clusters.map fun u => if u.1 = clusterOf c then (u.1, { u.2 with phases := u.2.phases.map fun p => { p with members := p.members.map fun i => if i = c then name else i } }) else u }

/-- The position in a restored loop (R232, R233): its signals are those of the `vloop` at the ring's head, and entries at POS that do not execute
are passed over. A loop without a further instance is over. -/
def settleLoop (s : State) (c : Nat) : State :=
  let v := (s.core c).v
  if !v.active then s.modV c fun v => { v with loopSignal := 0 }
  else
    let sig := cSignal (ringWord s c 4 0)
    match nextInstance s c v.trip v.body v.iterJ.toNat v.pos v.stages with
    | some (j, p) => s.modV c fun v => { v with loopSignal := sig, iter := iterWord v.trip p, iterJ := BitVec.ofNat 32 j }
    | none => advanceHead (completeEntry (s.modV c fun v => { v with loop := 0, iter := 0, iterJ := 0, loopSignal := 0 }) c 4 sig) c 4 (1 + v.body)

/-- R332. The signals of a running loop are those of its `vloop` at the ring's head (R232). The network's own state of a strand that stays in its cluster is what the network holds now, not what it held at the
SAVE (R20). -/
def loadWith (core ctx : Nat) (s : State) : Out :=
  mirCommand s core 5 ctx (fun t => (t = .idle || t = .saved) && !(s.core core).launched) fun s =>
    let l := mappedPieces s ctx false (pagePieces (s.core core).mir.area.toNat areaBytes)
    let rd := areaReader s l
    let err := loadError s core ctx l rd
    if err ≠ 0 then s.modMir core fun m => { m with err := err }
    else
      let src := rd 8 2
      let here := savedHere s src (pieceAddr l 0)
      let gone := 2 ^ 64 + saveKey src ctx (rd 12 4)
      let away := !here && (mapFind gone s.away).isSome
      let old := if here then s.core src else if away then s.strand gone else mapGet Core.reset (saveKey src ctx (rd 12 4)) s.saves
      let count := (s.cluster (clusterOf core)).fe.count
      let s := if (s.core core).mir.st = .saved && !(here && src = core) then leaveCore s core else s
      let own := s.core core
      let s := if here && src ≠ core then
          s.modCore src fun k => { k with mir := { k.mir with st := .idle }, q := Queues.reset, run := [], prog := [], eng := [], pr := PrismCore.left, m := MUnit.reset, rint := (0, 0) }
        else s
      let restored := rdCore rd core count old own
      let near := (here || away) && clusterOf src = clusterOf core
      let q := if near then { restored.q with net := old.q.net, arrivals := old.q.arrivals } else restored.q
      let s := (swapContext s ctx core).setCore core { restored with q := q, mir := { own.mir with st := .frozen }, rint := keptInterval here old.rint (rd 0x310 4, rd 0x314 4) }
      let s := settleLoop (settleRuns s core) core
      let s := { s with away := if away then mapDel gone s.away else s.away }
      let name := if here then src else gone
      if near then s.modCluster (clusterOf core) fun u => { u with phases := u.phases.map fun p => { p with members := p.members.map fun c => if c = name then core else c } }
      else if here || away then netLeave s name (clusterOf src) old.kern
      else s
/-- R333. -/
def resumeWith (core ctx : Nat) (s : State) : Out :=
  mirCommand s core 6 ctx (fun t => t = .frozen) fun s => s.modCore core fun k =>
    { k with mir := { k.mir with st := .running }, su := { k.su with next := max k.su.next (k.cy + 1) } }
def execResume (core : Nat) (s : State) : Out := windowed s (resumeWith core (ctxField s core) s)
/-- R324, R348. -/
def discardWith (core ctx : Nat) (s : State) : Out :=
  mirCommand s core 7 ctx (fun t => t = .frozen || t = .saved) fun s => discardCore s core (s.core core).firstCause
def execDiscard (core : Nat) (s : State) : Out := windowed s (discardWith core (ctxField s core) s)
/-- R324: a reserved command traps its writer with cause 0x51 and changes no register of the core. The writer is outside the
cores (log entry 20); a `setcr` of a strand takes the trap itself. -/
def execMirReserved (_core _cmd : Nat) (s : State) : Out := .next s
def execLoadArea (core ctx : Nat) (s : State) : Out := windowed s (loadWith core ctx s)

end Sys2Proof.Machine
end

