-- ==== Sys2Proof/Machine/Errors.lean ====
section
/-! DEFINITION. Fault queues and acknowledgements (R361 to R364), memory errors and poison (R366 to R369), fatal errors and
the dump (R371, R389). -/
namespace Sys2Proof.Machine

/-! ### Fatal errors (R371, R380, R389) -/

/-- The 32 bytes of a record (R362), as fields. -/
def recordFlds (off : Nat) (r : FRec) (lost : Bool) : List Fld :=
  [(off, 2, r.core), (off + 2, 1, r.unit), (off + 3, 1, r.cause), (off + 4, 2, r.ctx), (off + 6, 1, r.kind), (off + 7, 1, if lost then 1 else 0),
   (off + 8, 8, r.addr.toNat), (off + 16, 8, r.info.toNat), (off + 24, 4, r.seq), (off + 28, 4, r.cycle.toNat)]

/-- FQ.BASE, FQ.PTR (R362). -/
def fqSize (d : Die) : Nat := 2 ^ (d.fqBase.toNat % 16 + 7)
def fqFull (d : Die) : Bool := (d.tail + 2 * fqSize d - d.head) % (2 * fqSize d) = fqSize d
def fqPtr (d : Die) : Nat := d.dropped * 2 ^ 48 + (if d.badack then 2 ^ 47 else 0) + d.tail * 2 ^ 20 + d.head
/-- The clusters and cores of a list of dies. -/
def clustersOf (dies : List Nat) : List Nat := dies.flatMap fun d => (List.range 40).map (d * 40 + ·)
def coresOf (dies : List Nat) : List Nat := dies.flatMap fun d => (List.range 320).map (d * 320 + ·)

def dumpBase : Nat := 0x2F00000000
/-- The command processor's status word (R339). -/
def streamStatus (p : CmdProc) : Nat := p.last * 2 ^ 32 + p.err * 2 ^ 8 + p.state

/-- Section 0: the registers of the dies' window regions and the sensors, and in a dump of the whole package the event log's tail; their order is
log entry 21. -/
def dumpRegisters (s : State) (dies : List Nat) (whole : Bool) : List Fld :=
  (dies.flatMap fun d =>
    let x := s.die d
    let o := 0x1000 + 0x1000 * d
    flds o 8 8 [x.fqBase.toNat, fqPtr x, 0, 0, 0, (if s.trBusy.isSome then 1 else 0), 0, 0, x.cp.start.toNat, x.cp.status.toNat, x.cp.tagTab.toNat, x.cp.ctx, x.dlv.toNat] ++
    flds (o + 0x100) 8 8 ((List.range 40).map fun k => (s.cluster (d * 40 + k)).swallowNext) ++ (x.sensors.map fun e => (o + 0x400 + 8 * e.1, 8, e.2.toNat))) ++
  if whole then (s.sys.log.take 1024).zipIdx.flatMap fun e => [(0x5000 + 32 * e.2, 4, e.1.1), (0x5004 + 32 * e.2, 1, e.1.2.1), (0x5005 + 32 * e.2, 27, e.1.2.2)] else []

/-- The 16 bytes of a pool entry (R142), as fields. -/
def entFlds (off : Nat) (e : PEnt) : List Fld := [(off, 4, e.key.toNat), (off + 4, 4, e.tie.toNat), (off + 8, 8, e.payload.toNat)]
/-- A pool unit's part of section 5: the registers, and of each shard the entries that the unit holds, then those in its arrival buffer. -/
def dumpPool (p : Nat) (x : Pool) : List Fld :=
  [(0x9A000000 + 64 * p, 4, x.bound), (0x9A000004 + 64 * p, 4, x.starve), (0x9A000008 + 64 * p, 4, x.cap), (0x9A00000C + 64 * p, 4, x.owner.elim 0xFFFFFFFF id)] ++
  x.shards.flatMap fun h =>
    let o := 1024 * (4 * p + h.1)
    ((h.2.ents.take onChip).zipIdx.flatMap fun e => entFlds (0x9A200000 + o + 16 * e.2) e.1) ++
      (h.2.arr.take 64).zipIdx.flatMap fun a => entFlds (0x9A300000 + o + 16 * a.2) a.1.ent

/-- A scoreboard entry's part of section 5. -/
def dumpEntry (i seq : Nat) : Entry → List Fld
  | .kernel k => [(0x9A010000 + 64 * i, 8, seq), (0x9A010008 + 64 * i, 2, k.tag), (0x9A01000A + 64 * i, 2, k.ctx), (0x9A01000C + 64 * i, 1, k.level)
      , (0x9A01000D + 64 * i, 1, if k.issued then 1 else 0), (0x9A010010 + 64 * i, 8, k.entry.toNat)]
  | .xfer x => [(0x9A010000 + 64 * i, 8, seq), (0x9A010008 + 64 * i, 2, x.tag), (0x9A01000A + 64 * i, 2, x.ctx), (0x9A01000D + 64 * i, 1, 2)]
def boardDies : Entry → List Nat
  | .kernel k => k.dies
  | .xfer x => x.dies

/-- Section 5: pool units, scoreboards, command processors, delivery units of some dies' partition; their order is log entry 21. -/
def dumpUnits (s : State) (dies : List Nat) : List Fld :=
  ((s.pools.filter fun p => dies.any fun d => partOf s d = poolPart s p.1).flatMap fun p => dumpPool p.1 p.2) ++
  ((s.sb.zipIdx.filter fun e => (boardDies e.1.2).any dies.contains).flatMap fun e => dumpEntry e.2 e.1.1 e.1.2) ++
  (dies.flatMap fun d =>
    let x := s.die d
    flds (0x9A100000 + 64 * d) 8 8 [streamStatus x.cp, x.cp.off, x.cp.ctx, x.dlv.toNat, x.dlvPos])

/-- The areas of the cores; VALID is clear for IDLE ones (R389). -/
def dumpAreas (s : State) (dies : List Nat) (m : List Host.Cell) : List Host.Cell :=
  (coresOf dies).foldl (fun m c =>
    let idle : Bool := (s.core c).mir.st = .idle
    putFlds (fun off => dumpBase + 0x10000 + areaBytes * c + off) (fHeader s c (!idle) (clusterBound s c) (pendRecs (s.core c)).length ++ if idle then [] else areaFlds s c) m) m
def dumpImages (s : State) (dies : List Nat) (m : List Host.Cell) : List Host.Cell :=
  (coresOf dies).foldl (fun m c =>
    let at_ := dumpBase + 0x10000000 + imageBytes * c
    (fullCells s c).foldl (fun m e => memPut m (at_ + e.1) (BitVec.ofNat 8 e.2)) (copyCells (coreBase c) 524288 at_ m)) m
def dumpClusters (dies : List Nat) (m : List Host.Cell) : List Host.Cell :=
  (clustersOf dies).foldl (fun m k => copyCells (clusterBase k) (2 ^ 23) (dumpBase + 0x40000000 + 2 ^ 23 * k) m) m
/-- Whether a dump of some dies takes the tile element of a key. -/
def dumpsTile (dies : List Nat) (key : Nat) : Bool := dies.contains (key / 2 ^ 18 / 40)
/-- Accumulator tiles, arrays in index order (R389). -/
def dumpTiles (s : State) (dies : List Nat) (m : List Host.Cell) : List Host.Cell :=
  (s.acc.filter fun e => dumpsTile dies e.1).foldl (fun m e => memPutNat m (dumpBase + 0x90000000 + 4 * e.1) e.2.toNat 4) m

/-- Whether a source of a section cannot be read: poison in the memories the section takes (R389, R367). -/
def memPoisoned (s : State) (lo n : Nat) : Bool := s.poison.any fun e => decide (lo / 16 ≤ e.1) && decide (e.1 < (lo + n) / 16)
def failedSections (s : State) (dies : List Nat) : List Nat :=
  (if (coresOf dies).any fun c => memPoisoned s (coreBase c) 524288 then [2] else []) ++
  (if (clustersOf dies).any fun k => memPoisoned s (clusterBase k) (2 ^ 23) then [3] else []) ++
  (if s.accPoison.any fun e => e.2 && dumpsTile dies (16 * e.1) then [4] else [])

/-- What a dump writes, as offsets and bytes: all of the region, or each section's part of a partition's dies and pools (R389). -/
def dumpExtents (s : State) (dies : List Nat) (whole : Bool) : List (Nat × Nat) :=
  if whole then [(0, 2 ^ 32)]
  else
    (0, 4096) :: (dies.flatMap fun d => [(0x1000 + 0x1000 * d, 4096), (0x10000 + areaBytes * (320 * d), areaBytes * 320), (0x10000000 + imageBytes * (320 * d), imageBytes * 320),
      (0x40000000 + 2 ^ 23 * (40 * d), 2 ^ 23 * 40), (0x90000000 + 2 ^ 20 * (40 * d), 2 ^ 20 * 40), (0x9A100000 + 64 * d, 64)]) ++
    (((List.range 64).filter fun p => dies.any fun d => partOf s d = poolPart s p).flatMap fun p => [(0x9A000000 + 64 * p, 64), (0x9A200000 + 4096 * p, 4096), (0x9A300000 + 4096 * p, 4096)]) ++
    ((s.sb.zipIdx.filter fun e => (boardDies e.1.2).any dies.contains).map fun e => (0x9A010000 + 64 * e.2, 64))
/-- The sections of which a dump writes a part: one by one PRESENT's bits (R389). -/
def sectionAt (i : Nat) : Nat := ([0x1000, 0x10000, 0x10000000, 0x40000000, 0x90000000, 0x9A000000, 0x9B000000] : List Nat).getD i 0
def presentSections (l : List (Nat × Nat)) : List Nat :=
  (List.range 6).filter fun i => l.any fun x => decide (x.1 < sectionAt (i + 1)) && decide (sectionAt i < x.1 + x.2)

/-- The dump (R389): the sections in order, a failed one as zeros, the header last. -/
def writeDump (s : State) (dies : List Nat) (whole : Bool) (r : FRec) : State :=
  let bad := failedSections s dies
  let ext := dumpExtents s dies whole
  let m := ext.foldl (fun m x => memClear m (dumpBase + x.1) x.2) s.mem
  let pa (off : Nat) : Nat := dumpBase + off
  let m := putFlds pa (dumpRegisters s dies whole) m
  let m := dumpAreas s dies m
  let m := if bad.contains 2 then m else dumpImages s dies m
  let m := if bad.contains 3 then m else dumpClusters dies m
  let m := if bad.contains 4 then m else dumpTiles s dies m
  let m := putFlds pa (dumpUnits s dies) m
  let bits (l : List Nat) : Nat := (l.map fun b => 2 ^ b).sum
  let header : List Fld := [(0, 4, 0x504D5544), (4, 4, bits (presentSections ext)), (8, 4, bits bad), (48, 8, s.now)] ++ recordFlds 16 r false
  { s with mem := putFlds pa header m }

/-- R371: a fatal error of the package or, when it is partitioned, of one partition: the pulses stop, the dump is written,
READY clears. -/
def fatalStop (s : State) (die unit : Nat) (whole : Bool) : State :=
  let all := s.sys.part = 0 || whole
  let dies := if all then [0, 1, 2, 3] else partDies s die
  let r : FRec := { seq := (s.die die).seq, core := 0xFFFF, unit := unit, cause := 0x5F, ctx := 0xFFFF, kind := 4, addr := 0, info := 0, cycle := BitVec.ofNat 32 s.now
                    owner := 0xFFFF, agent := 99, after := false }
  let s := { s with sys := { s.sys with fatal := s.sys.fatal || all, fatalParts := if all then s.sys.fatalParts else partOf s die :: s.sys.fatalParts } }
  let s := writeDump s dies all r
  logEvent { s with sys := { s.sys with ready := false } } 6 unit

/-- R371: an error that no context owns. Units 11 and above serve every partition (R380). -/
def execFatalError (die unit : Nat) (s : State) : Out := .next (fatalStop s die unit (11 ≤ unit))

/-! ### The fault queue (R362) -/

/-- The unit that a record stops waits from now on for the record's acknowledgement. -/
def awaitAck (s : State) (r : FRec) (seq : Nat) : State :=
  if r.agent = 0 then
    match (s.core r.owner).su.wait with
    | .reporting => s.modS r.owner fun u => { u with wait := .held seq }
    | _ => s
  else if r.agent < 7 then s.modEng r.owner r.agent fun g => if g.stop = .reporting then { g with stop := .held seq } else g
  else if 16 ≤ r.agent && r.agent < 32 then
    let s := s.modChan r.owner (r.agent - 16) fun x => { x with stop := .held seq }
    if r.core < 1280 ∧ r.kind = 0 then s.modEng r.core 6 fun g => if g.stop = .reporting then { g with stop := .held seq } else g else s
  else s

/-- The first cause reported for a strand (R348). -/
def noteCause (s : State) (r : FRec) : State :=
  if r.kind ≠ 2 && decide (r.core < 1280) && (s.core r.core).ctx = r.ctx && (s.core r.core).firstCause = 0 then s.modCore r.core fun k => { k with firstCause := r.cause }
  else s

/-- Writes one record at TAIL (R362). A write beyond the die's memory fails, and that is fatal at the cycle boundary (R371; log entry 55). -/
def writeRecord (s : State) (die : Nat) (r : FRec) : State :=
  let d := s.die die
  let base := d.fqBase.toNat / 4096 * 4096
  let pa := base + 32 * (d.tail % fqSize d)
  if 192 * 2 ^ 30 ≤ pa % 2 ^ 38 then { s with sys := { s.sys with dying := s.sys.dying ++ [(die, 8)] } }
  else
    let r := { r with seq := d.seq }
    let bytes := (recordFlds 0 r d.lost).flatMap fun f => natBytes f.2.2 f.2.1
    let s := systemWrite s (systemUnit die 16) pa bytes
    let s := s.modDie die fun d =>
      { d with tail := (d.tail + 1) % (2 * fqSize d), raised := d.raised + 1, lost := false, seq := (d.seq + 1) % 2 ^ 32, waiting := if r.kind < 2 then d.waiting ++ [r] else d.waiting }
    noteCause (awaitAck s r r.seq) r

/-- R362: a waiting record is written; while the queue is full, an event is dropped and the others wait. -/
def execFaultRecordWrite (die : Nat) (s : State) : Out :=
  let d := s.die die
  if fqFull d then
    match d.queue.find? fun r => r.kind = 2 with
    | none => .refused .notEnabled
    | some r => .next (s.modDie die fun d => { d with queue := d.queue.erase r, dropped := min 65535 (d.dropped + 1), lost := true })
  else
    match d.queue with
    | [] => .refused .notEnabled
    | r :: rest => .next (writeRecord (s.modDie die fun d => { d with queue := rest }) die r)

/-! ### Acknowledgements (R363) -/

/-- Words and signals of the entry at an engine's head, which did not start. -/
def headEntry (s : State) (c e : Nat) : Nat × BitVec 8 :=
  let w := ringWord s c e (headSkip (s.core c) e)
  let map : EngineMap := if e = 3 then .w else if e = 4 then .v else if e = 5 then .m else if e = 6 then .c else .l
  if cWait w = 0xFF#8 then (1, 0)
  else
    let n := (extCount map (cOp w).toNat).getD 0
    let exts := ((List.range n).map fun i => ringWord s c e (i + 1)).takeWhile fun x => cWait x = 0xFF#8
    (1 + exts.length, cSignal w &&& ~~~(1#8 <<< e))

/-- Words and signals of an access entry under way. -/
def runEntry : Instr → Nat × BitVec 8
  | .lstrm w _ _ _ => (4, w.signal) | .lgathBm w _ _ _ => (4, w.signal) | .lgathRl w _ _ _ => (4, w.signal) | .lbmg w _ _ _ => (4, w.signal)
  | .lcbx w _ _ => (3, w.signal) | .lcbtab w _ => (2, w.signal) | .lpkld w _ _ => (3, w.signal)
  | .wstrm w _ _ _ => (4, w.signal) | .wpkst w _ _ => (3, w.signal) | .wscat w _ _ _ => (4, w.signal)
  | _ => (1, 0)

/-- A landing that waited for an acknowledgement goes on (R370): its write is tried again, or it is done without the rest. -/
def landHeld (s : State) (c : Nat) (skip : Bool) : State :=
  s.modV c fun v => { v with landings := v.landings.map fun x => if x.held then { x with held := false, targets := if skip then [] else x.targets } else x }

/-- SKIP on an engine: the entry retires with the effects already made (R363); rows of a drain that have not been stored are none of them. -/
def skipEngine (s : State) (r : FRec) : State :=
  let c := r.owner
  let e := r.agent
  match (s.core c).runOf e with
  | some x =>
    let n := runEntry x.ins
    finishEntry s c e n.1 n.2
  | none =>
    let left (s : State) : State := s.modM c fun m => { m with stores := m.stores.filter fun y => y.id ≠ r.entry, halted := m.halted && !m.cmds.isEmpty }
    match (if e = 5 then (s.core c).m.cmds.find? fun x => x.id = r.entry else none) with
    | some x => left (finishCmd s c x)
    | none =>
      if e = 5 ∧ r.entry ≠ 0 then left s else
      let n := headEntry s c e
      if e ≠ 4 then finishEntry s c e n.1 n.2
      else if (s.core c).v.landings.any (·.held) then landHeld s c true
      else vAdvance (completeV s c false n.2 (loopEnds s c)) c

/-- A pool unit whose access to its heap was refused goes on (R363, R367; log entry 51): with RETRY it writes or reads again, with SKIP it leaves the
write, or the entry that it could not read. -/
def heapResume (s : State) (p d : Nat) (skip : Bool) : State :=
  match (s.shard p d).refused with
  | none => if skip then s else spillHeap s p d
  | some e =>
    if !skip && heapPoisoned s p d then heapRefused s p d e
    else spillHeap (s.modShard p d fun sh => { sh with refused := none, ents := if skip then sh.ents.erase e else sh.ents }) p d

/-- Sets the unit of a record going again, with RETRY or SKIP (R363). A packed store recounts what it has written (R311). -/
def resumeUnit (s : State) (r : FRec) (skip : Bool) : State :=
  if r.agent = 0 then
    match (s.core r.owner).su.wait with
    | .held n =>
      if n = r.seq then
        s.modCore r.owner fun k =>
          { k with su := { k.su with wait := .idle, pc := if skip then k.su.pc + 4 else k.su.pc, steps := if skip then 0 else k.su.steps, bm := if skip then [] else k.su.bm, next := max k.su.next (k.cy + 1) }, pr := { k.pr with failed := 0 } }
      else s
    | _ => s
  else if r.agent < 7 then
    if ((s.core r.owner).engine r.agent).stop = .held r.seq then
      let s := s.modEng r.owner r.agent fun g => { g with stop := .run }
      if skip && !r.after then skipEngine s r
      else if r.agent = 4 then landHeld s r.owner false
      else if r.agent = 3 then s.modCore r.owner fun k => { k with run := k.run.map fun e => (e.1, if e.1 = 3 then settleRun s r.owner 3 e.2 else e.2) }
      else s
    else s
  else if 16 ≤ r.agent && r.agent < 32 then
    let ch := r.agent - 16
    let s := s.modChan r.owner ch fun x => { x with stop := .run }
    let s := if r.core < 1280 then s.modEng r.core 6 fun g => if g.stop = .held r.seq then { g with stop := .run } else g else s
    match ((s.cluster r.owner).chan ch).queue with
    | [] => s
    | e :: _ =>
      let s := if e.port then s.modCluster r.owner fun u => { u with cpState := 1, cpCause := 0 } else s
      if skip then finishCopy s r.owner ch e else s
  else if r.agent = 96 then
    heapResume (s.modShard (r.owner / 4) (r.owner % 4) fun sh => { sh with held := false }) (r.owner / 4) (r.owner % 4) skip
  else if r.agent = 100 then cpDrain (s.modDie r.owner fun d => { d with owing := false }) r.owner ((s.die r.owner).owed.drop (if skip then 1 else 0))
  else if r.agent = 101 then cpResume s r.owner skip
  else if r.agent = 97 then s.modDie r.owner fun d => { d with dlvHeld := false }
  else if r.agent = 98 then
    match mapFind r.owner s.sb, mapFind r.owner s.xfers with
    | some (.xfer x), _ => { s with sb := mapSet r.owner (.xfer { x with held := false, resident := x.resident || skip, copying := x.copying && !skip }) s.sb }
    | none, some x => { s with xfers := if skip then mapDel r.owner s.xfers else mapSet r.owner { x with held := false } s.xfers }
    | _, _ => s
  else s

/-- Takes the waiting record that an acknowledgement names; BADACK where there is none (R363). -/
def ackRecord (s : State) (die seq : Nat) (f : State → FRec → State) : State :=
  match (s.die die).waiting.find? fun r => r.seq = seq with
  | none => s.modDie die fun d => { d with badack := true }
  | some r => f (s.modDie die fun d => { d with waiting := d.waiting.filter fun x => x.seq ≠ seq }) r

/-- RETRY and SKIP of FQ.ACK (R363). -/
def ackGo (s : State) (die seq : Nat) (skip : Bool) : State := ackRecord s die seq fun s r => resumeUnit s r skip
/-- R363. -/
def execFqAckRetry (die seq : Nat) (s : State) : Out := windowed s (.next (ackGo s die seq false))
/-- R363. -/
def execFqAckSkip (die seq : Nat) (s : State) : Out := windowed s (.next (ackGo s die seq true))

/-! ### Killing a context (R364) -/

/-- A stream stops (R339): the status word is written by its command processor. -/
def stopStream (s : State) (die state err off : Nat) : State :=
  let p := (s.die die).cp
  let p := { p with running := false, state := state, err := err, last := off, loops := [] }
  let s := s.modDie die fun d => { d with cp := p }
  cpStore s die p.ctx p.status.toNat 8 (streamStatus p)

/-- The sequence numbers of a context's kernel entries, and of all its entries. -/
def kernelsOfCtx (s : State) (ctx : Nat) : List Nat := s.sb.filterMap fun e => match e.2 with
  | .kernel k => if k.ctx = ctx then some e.1 else none
  | .xfer _ => none
def entryCtx : Entry → Nat
  | .kernel k => k.ctx
  | .xfer x => x.ctx

/-- KILL takes the entries of a context that have trapped off the heads of their channels, whose queues go on (R363; log entry 32). -/
def dropTrapped (s : State) (ctx : Nat) : State :=
  s.clusters.foldl (fun s u => u.2.chans.foldl (fun s x =>
    let c := (s.cluster u.1).chan x.1
    let stopped : Bool := match c.stop with
      | .held _ | .reporting => true
      | _ => false
    match c.queue with
    | e :: r =>
      if stopped && e.ctx = ctx then
        let start := (s.cluster u.1).dcy + 1
        passWaiters (s.modChan u.1 x.1 fun c => { c with queue := r.map fun y => { y with start := max y.start start }, active := false, running := false, done := 0, stop := .run }) u.1 x.1
      else s
    | [] => s) s) s

/-- The writes that a command processor owes a killed context go; those of another context behind them are made (R357, R364). -/
def dropOwed (s : State) (die ctx : Nat) : State :=
  let d := s.die die
  match d.owed with
  | [] => s
  | x :: _ =>
    let left := d.owed.filter fun y => y.ctx ≠ ctx
    if x.ctx = ctx then cpDrain (s.modDie die fun d => { d with owing := false }) die left else s.modDie die fun d => { d with owed := left }

/-- R364: the context's strands are frozen and discarded, its pending tags fault, its stream stops, its scoreboard entries
and its waiting records go. -/
def killContext (s : State) (ctx cause : Nat) : State :=
  let mine := s.cores.filterMap fun e => if e.2.ctx = ctx && e.2.mir.st ≠ .idle then some e.1 else none
  let s := mine.foldl (fun s c => discardCore (if (s.core c).mir.st = .running then freezeCore s c else s) c cause) s
  let s := (kernelsOfCtx s ctx).foldl (fun s q => faultTag s q cause) s
  let s := ([0, 1, 2, 3] : List Nat).foldl (fun s d =>
    let p := (s.die d).cp
    if p.running && p.ctx = ctx then stopStream s d 2 0 p.last else s) s
  let s := dropTrapped s ctx
  let kerns := kernelsOfCtx s ctx
  let mir (k : Core) : Mirror := if k.ctx = ctx then { k.mir with busy := false, saving := none } else k.mir
  let s := { s with sb := s.sb.filter fun e => entryCtx e.2 ≠ ctx, away := s.away.filter fun e => e.2.ctx ≠ ctx
                    cores := s.cores.map fun e => (e.1, { e.2 with launched := e.2.launched && !kerns.contains e.2.kern, mir := mir e.2 }) }
  ([0, 1, 2, 3] : List Nat).foldl (fun s d => dropOwed (s.modDie d fun x =>
    { x with cpHeld := x.cpHeld && !((x.queue ++ x.waiting).any fun r => r.agent = 101 && r.ctx = ctx)
             waiting := x.waiting.filter fun r => r.ctx ≠ ctx, queue := x.queue.filter fun r => r.ctx ≠ ctx || decide (2 ≤ r.kind) }) d ctx) s

/-- KILL of FQ.ACK (R363, R364). -/
def ackKill (s : State) (die seq : Nat) : State := ackRecord s die seq fun s r => killContext (if r.agent = 101 then cpResume s r.owner false else s) r.ctx r.cause
/-- R363, R364. -/
def execFqAckKill (die seq : Nat) (s : State) : Out := windowed s (.next (ackKill s die seq))

/-! ### Memory errors (R366 to R369) -/

/-- R366: a corrected error in an SRAM of a domain freezes it for 40 pulses; each error adds 40. A number beyond the clusters
stands for the units outside every domain, whose corrections are only counted. -/
def execCorrectableError (cl : Nat) (s : State) : Out :=
  .next (s.modCluster cl fun u => { u with freeze := if cl < 160 then u.freeze + 40 else u.freeze, corrected := u.corrected + 1 })

/-- R366: the last of the swallowed pulses is over, and the domain runs again. -/
def execErrorFreezeEnd (cl : Nat) (s : State) : Out :=
  if (s.cluster cl).freeze = 1 then .next (s.modCluster cl fun u => { u with freeze := 0 }) else .refused .notEnabled

/-- R367: an uncorrectable error. Kind 0: the granule of memory at a physical address. Kind 1: the granule of an accumulator
element. Kind 2: a line that the memory scrubber finds bad, with its event. Kind 3: a line of a cluster's cache (cluster
times 2^40 plus address), which is discarded. -/
def execUncorrectableError (kind where_ : Nat) (s : State) : Out :=
  .next (match kind with
    | 0 => { s with poison := mapSet (granuleOf where_) true s.poison }
    | 1 => { s with accPoison := mapSet (where_ / 16) true s.accPoison }
    | 2 =>
      let s := { s with poison := mapSet (granuleOf where_) true s.poison }
      postEvent s (dieOfPa where_ % 4) 0xFFFF 10 0x53 0xFFFF 2 (BitVec.ofNat 64 where_) 0
    | _ => s.modCluster (where_ / 2 ^ 40) fun u => { u with cache := mapDel (where_ % 2 ^ 40 / 64) u.cache })

/-- The pool that something on its way belongs to, and the core whose S waits for it. -/
def poolFlight : Flight → Option (Nat × Option Nat)
  | .put p _ core _ _ _ _ => some (p, some core)
  | .count p _ _ _ _ => some (p, none)
  | .snap p _ _ _ _ => some (p, none)
  | .take p _ t => some (p, some t.core)
  | .serve p _ t _ => some (p, some t.core)
  | .migrate p _ _ _ _ => some (p, none)
  | .offer p _ _ _ => some (p, none)
  | .peek p _ core _ => some (p, some core)
  | _ => none

/-- R144: a pool is free again: its entries go, accepted inserts among them, and its snapshots end (R145). An instruction that waits for
it finds it not allocated (R139; log entry 22). DESIGN CHOICE (log entry 22): the pool's registers go back to their reset values. -/
def freePool (s : State) (p : Nat) : State :=
  let mine (f : Flight) : Bool := (poolFlight f).map (·.1) = some p
  let waiting := ((s.flights.filter fun f => mine f.2).filterMap fun f => (poolFlight f.2).bind (·.2)) ++
    (s.pool p).shards.flatMap fun e => (e.2.loc ++ e.2.fwd).map (·.core)
  let s := { s with flights := s.flights.filter fun f => !mine f.2, evq := s.evq.filter fun x => x.ins ≠ Instr.poolSnapshot p }
  waiting.foldl (fun s c => s.send (s.now + 12) (fun id => .poolResultReturn id) (.result c 0 none false 0x45)) (s.setPool p Pool.reset)

/-- R369: state that carries no poison is lost. Kind 0: a core's; kind 1 + d: a pool's, whose entries go with it, lost by the pool unit of
die d (R361). -/
def execStateLost (kind n : Nat) (s : State) : Out :=
  .next (
    if kind = 0 then
      let k := s.core n
      let idle : Bool := k.mir.st = .idle
      let ctx := if idle then 0xFFFF else k.ctx
      let s := if idle then s else killContext s k.ctx 0x55
      postEvent s (dieOf n) n 0 0x55 ctx 2 0 0
    else
      let p := s.pool n
      let s := match p.owner with
        | some x => killContext s x 0x57
        | none => s
      let s := freePool s n
      postEvent s (kind - 1) 0xFFFF 7 0x57 (p.owner.elim 0xFFFF id) 2 0 0)

end Sys2Proof.Machine
end

