-- ==== Sys2Proof/Machine/CopyPort.lean ====
section
/-! DEFINITION. The system copy port of a cluster (R335). -/
namespace Sys2Proof.Machine

/-- The command's own part of check 4 and its rounding field (R171, R273 to R277). -/
def portForm : Instr → Option (EWord × Bool × RF)
  | .cSetrm w => some (w, false, .set)
  | .cEnop w => some (w, okPlain w, .zero)
  | .ccopy w x1 x2 => some (w, okCcopy w x1 x2, .code)
  | .cwin w x1 x2 x3 => some (w, okCwin w x1 x2 x3, .zero)
  | .cadd w x1 x2 => some (w, okCadd w x1 x2, .code)
  | .caccld w x1 => some (w, okCacc w x1, .zero)
  | .caccst w x1 => some (w, okCacc w x1, .zero)
  | .cexp w x1 => some (w, okCexp w x1, .zero)
  | .carr w x1 => some (w, okCarr w x1, .zero)
  | _ => none

/-- The port's entry, or the cause of checks 1 and 2 of R171. -/
def portEntry (w0 : W64) (xs : List W64) : Nat ⊕ Instr :=
  let n := (extCount .c (cOp w0).toNat).getD 0
  if cWait w0 = 0xFF#8 || (xs.take n).any fun x => cWait x ≠ 0xFF#8 then .inl 0x07
  else
    match decodeEC (cOp w0).toNat (eFields w0) ((xs.take n).map xPayload) with
    | none => .inl 0x06
    | some i => .inr i

/-- The cause of the remaining checks (R171, R335), and of the command's own. -/
def portCause (i : Instr) : Option Nat :=
  match portForm i with
  | none => some 0x06
  | some (w, ok, round) =>
    match eFault 6 w (ok && coreFieldsOk i && w.wait = 0 && w.signal = 0) round with
    | some cause => some cause
    | none => cChecks i

/-- A GO: the checks in their order, then the dispatch behind the entries already queued (R272, R335). -/
def portGo (s : State) (cl ctx : Nat) (words : List W64) : State :=
  let u := s.cluster cl
  let word (i : Nat) : W64 := words.getD i 0
  let fail (cause : Nat) : State := s.modCluster cl fun u => { u with cpState := 3, cpCause := cause }
  match portEntry (word 0) [word 1, word 2, word 3] with
  | .inl cause => fail cause
  | .inr i =>
    match portCause i, portForm i with
    | some cause, _ => fail cause
    | none, none => fail 0x06
    | none, some (w, _, _) =>
      if (cKind i).isNone then s.modCluster cl fun u => { u with cpState := 2, cpCause := 0 }
      else
        let ch := argF w 39 36
        if 8 ≤ (u.chan ch).queue.length then s.modCluster cl fun u => { u with cpState := 1, cpCause := 0, cpHeld := some (ctx, words) }
        else
        match bindBar i (u.chan ch).bound with
        | none => fail 0x43
        | some (bar, bound) =>
          let e : CopyEnt := { ins := i, word := word 0, addr := 0, core := cl * 8, live := false, port := true, ctx := ctx
                               mode := if w.round = 0 then 1 else w.round.toNat, signal := 0, bar := bar, start := u.dcy + 2, rel := Rel.none, kern := 0 }
          let s := s.modChan cl ch fun x => { x with queue := x.queue ++ [e], bound := bound }
          s.modCluster cl fun u => { u with cpState := 1, cpCause := 0, cpHeld := none }

/-- An entry that waits for room in its channel's queue is tried again, as GO found it. -/
def portRetry (s : State) (cl : Nat) : State :=
  match (s.cluster cl).cpHeld with
  | some (ctx, words) => portGo (s.modCluster cl fun u => { u with cpHeld := none }) cl ctx words
  | none => s

/-- A write of CP.CTL (R335): one while the port is busy is ignored and logged as a window error. -/
def portWrite (s : State) (cl : Nat) (w : W64) : State :=
  if (s.cluster cl).cpState = 1 then logEvent s 5 0
  else if w.getLsbD 0 then portGo s cl (w.toNat / 2 ^ 32 % 65536) ((List.range 4).map fun i => mapGet 0 i (s.cluster cl).ent) else s

/-- R335. -/
def execCpGo (cl : Nat) (w : BitVec 64) (s : State) : Out := windowed s (.next (portWrite s cl w))

/-- CP.STAT (R335). -/
def portStatus (u : Cluster) : Nat := u.cpState + u.cpCause * 2 ^ 8

end Sys2Proof.Machine
end

