-- ==== Sys2Proof/Machine/SysRegs.lean ====
section
/-! DEFINITION. Control registers: their numbers, fields and privileges (R162, R207, R319 to R321), `getcr` and `setcr`. -/
namespace Sys2Proof.Machine

/-! ### The table of R321 -/

/-- Indexed registers: what the index names. -/
inductive CrIndex where
  | none | channel | pool | core
  deriving DecidableEq, Repr

/-- One row of the table: its index; privileged to read; written by nobody, by anyone, privileged, or under INH. -/
structure CrRow where
  index : CrIndex
  readPriv : Bool
  /-- 0 traps 0x0A, 1 any, 2 privileged, 3 any while INH = 1. -/
  write : Nat
  deriving DecidableEq, Repr

def crRow (n : Nat) : Option CrRow :=
  match n with
  | 0x000 => some ⟨.none, false, 0⟩ | 0x001 => some ⟨.none, false, 0⟩ | 0x002 => some ⟨.none, false, 0⟩
  | 0x010 => some ⟨.none, false, 0⟩ | 0x011 => some ⟨.none, false, 2⟩ | 0x012 => some ⟨.none, false, 1⟩
  | 0x013 => some ⟨.none, false, 2⟩ | 0x014 => some ⟨.none, false, 2⟩ | 0x015 => some ⟨.none, false, 3⟩
  | 0x016 => some ⟨.none, false, 3⟩ | 0x017 => some ⟨.none, false, 2⟩
  | 0x018 => some ⟨.none, false, 2⟩ | 0x019 => some ⟨.none, false, 2⟩ | 0x01A => some ⟨.none, false, 2⟩
  | 0x020 => some ⟨.none, false, 0⟩
  | 0x030 => some ⟨.channel, true, 0⟩
  | 0x040 => some ⟨.pool, false, 1⟩ | 0x041 => some ⟨.pool, false, 1⟩ | 0x042 => some ⟨.pool, false, 0⟩
  | 0x050 => some ⟨.none, false, 0⟩
  | 0x051 => some ⟨.core, true, 2⟩ | 0x052 => some ⟨.core, true, 0⟩ | 0x053 => some ⟨.core, true, 2⟩ | 0x054 => some ⟨.core, true, 2⟩
  | _ => none

/-! ### Values -/

/-- CTX.CTRL with a strand's INH (R321). -/
def ctrlWord (x : Ctx) (inh : Bool) : Nat :=
  (if x.priv then 1 else 0) + (if x.rtrap then 2 else 0) + (if inh then 64 else 0) + if x.tven then 128 else 0
/-- CHn.WM (R89). -/
def wmWord (ch : Chan) : Nat := ch.wm.toNat % 2 ^ 52 + if ch.active then 2 ^ 63 else 0
/-- MIR.STAT (R324). -/
def mirState : MirState → Nat
  | .idle => 0 | .running => 1 | .frozen => 2 | .saved => 3
def mirStat (m : Mirror) : Nat := m.fcy.toNat * 2 ^ 32 + m.err * 2 ^ 24 + (if m.busy then 8 else 0) + mirState m.st
def capWord (p : Pool) : Nat := p.cap + if p.norebal then 2 ^ 31 else 0

/-- A per-context register (R320, R321); PRIO's CUR is the strand's. -/
def ctxReg (x : Ctx) (inh : Bool) (cur n : Nat) : Nat :=
  match n with
  | 0x011 => ctrlWord x inh
  | 0x012 => x.rctrap.toNat
  | 0x014 => x.racelog.toNat
  | 0x017 => x.tvec.toNat
  | 0x018 => x.floor + cur * 2 ^ 8
  | 0x019 => x.limit * 2 ^ 24 + x.interval
  | 0x01A => x.wake.toNat
  | _ => 0

/-- A register of a core or its strand. -/
def coreReg (s : State) (c n : Nat) : Nat :=
  let k := s.core c
  match n with
  | 0x000 => (coreId s c).toNat
  | 0x001 => k.lclus * 2 ^ 16 + k.lcount * 2 ^ 8
  | 0x002 => prismState s c
  | 0x010 => k.ctx
  | 0x013 => k.su.rspill.toNat
  | 0x015 => k.su.epc.toNat
  | 0x016 => k.su.cause.toNat
  | 0x020 => leaseWord k
  | 0x050 => 0x100
  | 0x051 => k.mir.ctx * 2 ^ 16 + k.mir.cmd
  | 0x052 => mirStat k.mir
  | 0x053 => k.mir.area.toNat
  | 0x054 => k.mir.img.toNat
  | _ => ctxReg (s.ctx k.ctx) k.su.inh k.cur n

def poolReg (p : Pool) (n : Nat) : Nat := if n = 0x040 then p.bound else if n = 0x041 then p.starve else capWord p

/-! ### Writes: the defined fields only, or the cause of a value that traps (R207, R321) -/

/-- An address register: reserved bits and misalignment trap (R321). -/
def addrReg (align : Nat) (v : W64) : Nat ⊕ W64 := if 2 ^ 52 ≤ v.toNat ∨ v.toNat % align ≠ 0 then .inl 0x02 else .inr v

/-- A write of a per-context register. -/
def setCtxReg (x : Ctx) (n : Nat) (v : W64) : Nat ⊕ Ctx :=
  match n with
  | 0x011 => .inr { x with priv := v.getLsbD 0, rtrap := v.getLsbD 1, tven := v.getLsbD 7 }
  | 0x012 => if v.toNat % 2 ^ 32 < 16 then .inr { x with rctrap := v.setWidth 4 } else .inl 0x02
  | 0x014 => (addrReg 16 v).map id fun v => { x with racelog := v }
  | 0x017 => (addrReg 4 v).map id fun v => { x with tvec := v }
  | 0x018 => if 47 < v.toNat % 64 then .inl 0x02 else .inr { x with floor := v.toNat % 64 }
  | 0x019 =>
    let i := v.toNat % 2 ^ 20
    if i = 0 then .inl 0x02 else .inr { x with limit := v.toNat / 2 ^ 24 % 256, interval := i }
  | 0x01A =>
    let size := 12 + v.toNat / 2 % 16
    let base := v.toNat % 2 ^ 52 / 2 ^ 12 * 2 ^ 12
    if base % 2 ^ size ≠ 0 then .inl 0x02 else .inr { x with wake := v &&& 0x000FFFFFFFFFF01F }
  | _ => .inr x

/-- A write of a register that belongs to a strand (R320). -/
def setStrandReg (u : SUnit) (n : Nat) (v : W64) : Nat ⊕ SUnit :=
  match n with
  | 0x013 => .inr { u with rspill := v &&& 0xFFFFFFFFFFFFFFF8 }
  | 0x015 => (addrReg 4 v).map id fun v => { u with epc := v }
  | 0x016 => .inr { u with cause := v &&& 0x0000FFFF000000FF }
  | _ => .inr u

/-- A write of a pool register (R141). -/
def setPoolReg (p : Pool) (n : Nat) (v : W64) : Nat ⊕ Pool :=
  match n with
  | 0x040 => let b := v.toNat % 2 ^ 16
             if b < 48 then .inl 0x46 else .inr { p with bound := b }
  | 0x041 => let l := v.toNat % 2 ^ 20
             if l < 1024 then .inl 0x46 else .inr { p with starve := l }
  | _ => let c := v.toNat % 2 ^ 24
         if c < 64 then .inl 0x46 else .inr { p with cap := c, norebal := v.getLsbD 31 }

/-- A write of a Mirror register other than MIR.CTL. -/
def setMirReg (m : Mirror) (n : Nat) (v : W64) : Nat ⊕ Mirror :=
  (addrReg 4096 v).map id fun v => if n = 0x053 then { m with area := v } else { m with img := v }

/-- A Mirror command with its CTX field, carried out at a cycle boundary (R324). -/
def mirPerform (s : State) (c cmd ctx : Nat) : Out :=
  match cmd with
  | 0 => noneWith c ctx s
  | 1 => freezeWith c ctx s
  | 2 => saveWith c ctx s
  | 3 => imgoutWith c ctx s
  | 4 => imginWith c ctx s
  | 5 => loadWith c ctx s
  | 6 => resumeWith c ctx s
  | 7 => discardWith c ctx s
  | _ => .next s

/-! ### The checks made in decoding (R162, R163, R207) -/

/-- Check 3 of R163 and the index field of R207: the cause, whatever the guard holds. -/
def crDecode (s : State) (c : Nat) (n : Nat) (a : BitVec 5) (write : Bool) : Option Nat :=
  match crRow n with
  | none => some (if a ≠ 0 then 0x02 else 0x08)
  | some r =>
    let priv := (s.ctxOf c).priv
    let need : Bool := if write then r.write = 2 || (r.write = 3 && !(s.core c).su.inh) else r.readPriv
    if r.index = .none && a ≠ 0 then some 0x02
    else if need && !priv then some 0x09
    else none

/-- The index, checked when the instruction has its effect (R207, R321). -/
def crIndexTrap (s : State) (c : Nat) (r : CrRow) (i : Nat) : Option Nat :=
  match r.index with
  | .none => none
  | .channel => if 16 ≤ i then some 0x08 else none
  | .core => if 1280 ≤ i then some 0x08 else none
  | .pool =>
    if 64 ≤ i then some 0x08
    else if (s.pool i).owner = some (s.core c).ctx && poolPart s i = partOf s (dieOf c) then none else some 0x45

/-- The value a strand reads. -/
def crValue (s : State) (c n i : Nat) : Nat :=
  match (crRow n).map CrRow.index with
  | some .channel => wmWord ((s.cluster (clusterOf c)).chan i)
  | some .pool => poolReg (s.pool i) n
  | some .core => coreReg s i n
  | _ => coreReg s c n

/-- R207: reads a control register. DESIGN CHOICE (log entry 69): `getcr` and `setcr` count as system instructions for the spin rule of R182. -/
def execGetcr (g : BitVec 3) (d a : BitVec 5) (i : BitVec 12) (s : State) : Host.Outcome State Fault Refusal :=
  let c := s.cur.1
  .next (
    match crDecode s c i.toNat a false, crRow i.toNat with
    | some cause, _ => trapS s c cause 0 none
    | none, none => trapS s c 0x08 0 none
    | none, some r =>
      scalar g (fun s =>
        match crIndexTrap s c r (s.x a).toNat with
        | some cause => .trap cause 0 none s
        | none => .ok (s.setX d (BitVec.ofNat 64 (crValue s c i.toNat (s.x a).toNat)) 2) none 1 .other) s)

/-- A strand's write, the checks passed: a cause, or the state after it. -/
def crWrite (s : State) (c n i : Nat) (v : W64) : Nat ⊕ State :=
  match n with
  | 0x040 => (setPoolReg (s.pool i) n v).map id fun p => s.setPool i p
  | 0x041 => (setPoolReg (s.pool i) n v).map id fun p => s.setPool i p
  | 0x051 => if 8 ≤ v.toNat % 16 then .inl 0x51 else .inr (s.modMir i fun m => { m with posted := m.posted ++ [(v.toNat % 16, v.toNat / 2 ^ 16 % 65536)] })
  | 0x053 => (setMirReg (s.core i).mir n v).map id fun m => s.modMir i fun _ => m
  | 0x054 => (setMirReg (s.core i).mir n v).map id fun m => s.modMir i fun _ => m
  | 0x013 => (setStrandReg (s.core c).su n v).map id fun u => s.modS c fun _ => u
  | 0x015 => (setStrandReg (s.core c).su n v).map id fun u => s.modS c fun _ => u
  | 0x016 => (setStrandReg (s.core c).su n v).map id fun u => s.modS c fun _ => u
  | _ => (setCtxReg (s.ctxOf c) n v).map id fun x => s.setCtx (s.core c).ctx x

/-- R207: writes the fields that a control register defines. DESIGN CHOICE (log entry 68): the index is looked at before the register's access, so a PB.cap of a
pool that the context does not own takes 0x45. -/
def execSetcr (g : BitVec 3) (d a : BitVec 5) (i : BitVec 12) (s : State) : Host.Outcome State Fault Refusal :=
  let c := s.cur.1
  .next (
    match crDecode s c i.toNat a true, crRow i.toNat with
    | some cause, _ => trapS s c cause 0 none
    | none, none => trapS s c 0x08 0 none
    | none, some r =>
      scalar g (fun s =>
        match crIndexTrap s c r (s.x a).toNat with
        | some cause => .trap cause 0 none s
        | none =>
          if r.write = 0 then .trap 0x0A 0 none s
          else
            match crWrite s c i.toNat (s.x a).toNat (s.x d) with
            | .inl cause => .trap cause 0 none s
            | .inr s => .ok s none 2 .other) s)

end Sys2Proof.Machine
end

