-- ==== Sys2Proof/Machine/Stream.lean ====
section
/-! DEFINITION. The command processors: streams, packets, loops, waits, launches and transfers entering the scoreboards (R336
to R345, R348, R355). -/
namespace Sys2Proof.Machine

/-! ### What packets share (R337 to R339, R355) -/

/-- Cycles of one read of device memory by a die's command processor (R355). -/
def cpReadCycles (s : State) (die va : Nat) : Nat :=
  match dieAddr s (160 + die) (s.die die).cp.ctx va false with
  | some pa => 150 + legCy die (dieOfPa pa)
  | none => 150

/-- The walk that a command processor waits for before it uses addresses (R358). -/
def cpWalk (s : State) (die : Nat) (vas : List Nat) : Option State := dieWalk s (160 + die) (s.die die).cp.ctx (die, 514) false vas

/-- Writes the status word as it stands (R339). -/
def writeStatus (s : State) (die : Nat) : State := let p := (s.die die).cp; cpStore s die p.ctx p.status.toNat 8 (streamStatus p)

/-- The transfers that a condition names leave the scoreboards; the bytes of those that are not resident still land (R344, R345). -/
def retireXfers (s : State) (mine : Nat → Xfer → Bool) : State :=
  s.sb.foldl (fun s e =>
    match e.2 with
    | .kernel _ => s
    | .xfer x => if mine e.1 x then { s with sb := mapDel e.1 s.sb, xfers := if x.resident then s.xfers else mapSet e.1 x s.xfers } else s) s
/-- Transfers of a stream that ends leave the scoreboards (R345). -/
def endTransfers (s : State) (die ctx : Nat) : State := retireXfers s fun _ x => x.ctx = ctx && x.die = die

/-- What a packet does. -/
inductive PRes where
  /-- Executed: further cycles for its reads, and the offset of the next packet when it is not the one that follows. -/
  | ok (s : State) (cycles : Nat) (next : Option Nat)
  | err (code : Nat)
  /-- Its data at an address are poisoned (R367). -/
  | poison (va : Nat)
  | wait

/-- What a read of n bytes that cannot be made comes to: ERR 4, or the trap of poison (R339, R367). -/
def cpFails (s : State) (die va n : Nat) : PRes :=
  match cpFault s die va n with
  | some (a, true) => .poison a
  | _ => .err 4

/-- A packet of nw words after its header, executed by a die's command processor; `ok` says that its unassigned bits are
zero (R338). The status word follows every packet. -/
def packet (die : Nat) (w : W64) (nw : Nat) (ok : Bool) (body : CmdProc → PRes) (s : State) : Out :=
  let p := (s.die die).cp
  if !p.running || s.now < p.due || p.skipping ≠ 0 then .refused .notEnabled
  else if w.toNat / 2 ^ 48 % 256 ≠ nw || !ok then .next (endTransfers (stopStream s die 2 1 p.off) die p.ctx)
  else
    .next (match body p with
    | .wait => s.modCp die fun p => { p with due := s.now + 1 }
    | .err code => endTransfers (stopStream s die 2 code p.off) die p.ctx
    | .poison va => cpPoison s die va
    | .ok s c next => writeStatus (s.modCp die fun q => { q with last := p.off, off := next.getD (p.off + 8 * (1 + nw)), due := s.now + 20 + c }) die)

/-! ### Starting and ending a stream -/

/-- R337: system software starts a stream; a command processor executes one at a time. The context runs on this die, and in
its partition (R380). -/
def startStream (s : State) (die : Nat) (w : W64) : State :=
  let p := (s.die die).cp
  if p.running then logEvent s 5 0
  else
    let s := s.modCp die fun p => { p with start := w &&& 0xFFFFFFFFFFFFFFF8, running := true, off := 0, last := 0, loops := [], due := s.now + 20, state := 0, err := 0, skipping := 0, named := [] }
    writeStatus (s.modCtx p.ctx fun x => { x with die := die }) die

/-- R337. -/
def execStreamStart (die : Nat) (w : BitVec 64) (s : State) : Out := windowed s (.next (startStream s die w))

/-- R338: END; inside an open loop it is an error. -/
def execPktEnd (die : Nat) (w : BitVec 64) (s : State) : Out :=
  packet die w 0 (w.toNat % 2 ^ 48 = 0) (fun p =>
    if !p.loops.isEmpty then .err 3
    else .ok ((endTransfers s die p.ctx).modCp die fun q => { q with running := false, state := 1 }) 0 none) s

/-! ### Loops and skips (R338, R339) -/

/-- Opens a loop: one with count 0 is passed over. -/
def openLoop (s : State) (die : Nat) (p : CmdProc) (count nw cycles : Nat) : PRes :=
  if 4 ≤ p.loops.length then .err 3
  else if count = 0 then .ok (s.modCp die fun q => { q with skipping := 1 }) cycles none
  else .ok (s.modCp die fun q => { q with loops := (count, p.off + 8 * (1 + nw)) :: q.loops }) cycles none

/-- R338. -/
def execPktLoop (die : Nat) (w : BitVec 64) (s : State) : Out :=
  packet die w 0 (w.toNat % 2 ^ 48 / 2 ^ 32 = 0) (fun p => openLoop s die p (w.toNat % 2 ^ 32) 0 0) s

/-- R338: the count is read now. -/
def execPktLoopi (die : Nat) (w a : BitVec 64) (s : State) : Out :=
  packet die w 1 (w.toNat % 2 ^ 48 = 0) (fun p =>
    match cpRead s die a.toNat 4 with
    | none => cpFails s die a.toNat 4
    | some n => openLoop s die p n 1 (cpReadCycles s die a.toNat)) s

/-- R338, R339. -/
def execPktEndloop (die : Nat) (w : BitVec 64) (s : State) : Out :=
  packet die w 0 (w.toNat % 2 ^ 48 = 0) (fun p =>
    match p.loops with
    | [] => .err 3
    | (n, at_) :: r =>
      if 1 < n then .ok (s.modCp die fun q => { q with loops := (n - 1, at_) :: r }) 0 (some at_)
      else .ok (s.modCp die fun q => { q with loops := r }) 0 none) s

/-- Whether the words from an offset up to a target hold the ENDLOOP of an open loop (R339); an address where one of them cannot be read. -/
def passesEnd (s : State) (die : Nat) (p : CmdProc) (off target depth : Nat) : Nat → Except Nat Bool
  | 0 => .ok false
  | f + 1 =>
    if target ≤ off then .ok false
    else
      match cpRead s die (p.start.toNat + off) 8 with
      | none => .error (p.start.toNat + off)
      | some h =>
        let op := h / 2 ^ 56
        let next := off + 8 * (1 + h / 2 ^ 48 % 256)
        if op = 6 then if depth = 0 then .ok true else passesEnd s die p next target (depth - 1) f
        else passesEnd s die p next target (if op = 4 ∨ op = 5 then depth + 1 else depth) f

/-- R338, R339. -/
def execPktSkipif (die : Nat) (w a b : BitVec 64) (s : State) : Out :=
  let cmp := w.toNat / 2 ^ 45 % 8
  packet die w 2 (w.toNat % 2 ^ 45 / 2 ^ 16 = 0 && cmp < 4) (fun p =>
    match cpRead s die a.toNat 8 with
    | none => cpFails s die a.toNat 8
    | some x =>
      let y := b.toNat
      let holds : Bool := match cmp with
        | 0 => x = y
        | 1 => x ≠ y
        | 2 => x < y
        | _ => y ≤ x
      let after := p.off + 24
      let target := after + 8 * (w.toNat % 2 ^ 16)
      let cycles := cpReadCycles s die a.toNat
      if !holds then .ok s cycles none
      else
        match (if p.loops.isEmpty then .ok false else passesEnd s die p after target 0 (w.toNat % 2 ^ 16)) with
        | .error va => cpFails s die va 8
        | .ok true => .err 3
        | .ok false => .ok s cycles (some target)) s

/-! ### Entries (R341 to R345) -/

/-- A rectangle word (R340), with its dies along the ring. -/
structure Rect where
  dies : List Nat
  cfirst : Nat
  clast : Nat
  zero : Bool
  deriving DecidableEq, Repr

def diesFrom (first last : Nat) : List Nat := (List.range ((last + 4 - first) % 4 + 1)).map fun i => (first + i) % 4
def rectOf (v : Nat) : Rect := ⟨diesFrom (v % 4) (v / 4 % 4), v / 2 ^ 8 % 64, v / 2 ^ 16 % 64, v / 16 % 16 = 0 && v / 2 ^ 14 % 4 = 0 && v / 2 ^ 22 = 0⟩
/-- A rectangle is valid inside its partition (R341, R380). -/
def rectOk (s : State) (die : Nat) (r : Rect) : Bool := r.cfirst ≤ r.clast && r.clast ≤ 39 && r.dies.all fun d => partOf s d = partOf s die

def entryDies : Entry → List Nat
  | .kernel k => k.dies
  | .xfer x => x.dies
/-- Whether a scoreboard of the dies is full (R343). -/
def boardFull (s : State) (dies : List Nat) : Bool := dies.any fun d => 256 ≤ (s.sb.filter fun e => (entryDies e.2).contains d).length
/-- Whether a tag names a kernel entry that has not retired, or any entry (R343). -/
def tagBusy (s : State) (ctx tag : Nat) (kernels : Bool) : Bool :=
  s.sb.any fun e => match e.2 with
    | .kernel k => k.ctx = ctx && k.tag = tag
    | .xfer x => !kernels && x.ctx = ctx && x.tag = tag
/-- Cycles from LAUNCH to an entry on each die (R355). -/
def launchCycles (dies : List Nat) : Nat := 40 + (dies.map (legCy 0)).foldl max 0

/-- Enters an entry under a new sequence number, which its tag then names. -/
def enterEntry (s : State) (die tag : Nat) (xfer : Bool) (e : Nat → Entry) : State :=
  let q := s.sys.seq + 1
  let s := { s with sys := { s.sys with seq := q }, sb := mapSet q (e q) s.sb }
  s.modCp die fun p => { p with named := mapSet tag (q, xfer, 0) p.named }

/-- The loader's descriptors of a kernel (R41). -/
def imageKey (ctx : Nat) (entry : W64) : Nat := ctx * 2 ^ 52 + entry.toNat
def imageOf (s : State) (ctx : Nat) (entry : W64) : Image := (mapFind (imageKey ctx entry) s.images).getD ⟨[], [], [], [], []⟩
/-- Whether every slot that the loader writes has no command in flight (R88). -/
def handlesFree (s : State) (ctx : Nat) (entry : W64) : Bool := (imageOf s ctx entry).handles.all fun e => ((s.ctx ctx).slot e.1).inflight = 0
/-- The loader writes the descriptors of a kernel into their slots, with generation 0 (R41). -/
def loadHandles (s : State) (ctx : Nat) (entry : W64) : State :=
  (imageOf s ctx entry).handles.foldl (fun s e => s.modSlot ctx e.1 fun _ => { e.2 with valid := true, gen := 0, inflight := 0 }) s
/-- Whether a `.stage` range of the kernel lies outside a launch of n clusters (R41). DESIGN CHOICE (log entry 61): such a launch stops the stream
with ERR 2. -/
def stagesOutside (i : Image) (n : Nat) : Bool := i.stages.any fun r => decide (n ≤ r.2.2)

/-- A tag that launches nothing passes at once to TRIGGERED and retires (R342). -/
def emptyLaunch (s : State) (die : Nat) (p : CmdProc) (tag : Nat) (dies : List Nat) : State :=
  let s := tagAnnounce (tagWrite s die p.ctx p.tagTab tag 2 0) dies (tagKey p.ctx tag)
  s.modCp die fun p => { p with named := mapSet tag (0, false, s.now + 120) p.named }

/-- A field of a launch descriptor (R340). -/
def descAt (d o n : Nat) : Nat := d / 256 ^ o % 256 ^ n
/-- The rectangle of a launch: the descriptor's, or the size record's from the descriptor's first cluster and die (R340, R342). -/
def launchRect (d : Nat) (size : Option Nat) : Rect :=
  let r := rectOf (descAt d 16 8)
  match size with
  | none => r
  | some z => { r with clast := r.cfirst + z % 256 - 1, dies := diesFrom (descAt d 16 1 % 4) ((descAt d 16 1 % 4 + z / 256 % 256 - 1) % 4) }
/-- The clusters of a rectangle. -/
def Rect.size (r : Rect) : Nat := r.dies.length * (r.clast + 1 - r.cfirst)

/-- A launch from its descriptor; `size` is the record of LAUNCHI (R340 to R343, R348). -/
def launch (s : State) (die : Nat) (p : CmdProc) (desc : Nat) (size : Option Nat) (cycles : Nat) : PRes :=
  match cpRead s die desc 128 with
  | none => cpFails s die desc 128
  | some d =>
    let f := descAt d
    let nclus := size.elim 1 (· % 256)
    let r := launchRect d size
    let sizeOk : Bool := match size with
      | none => true
      | some z => z % 256 ≤ 40 && 1 ≤ z / 256 % 256 && z / 256 % 256 ≤ 4 && z / 2 ^ 16 = 0
    let nst := f 30 1
    let npr := f 29 1
    let cyc := cycles + cpReadCycles s die desc
    if !sizeOk || desc % 16 ≠ 0 || f 0 8 % 4 ≠ 0 || f 8 8 % 8 ≠ 0 || f 24 4 % 8 ≠ 0 || 47 < f 28 1 || 4 < npr || 4 < nst then .err 2
    else if nclus = 0 then
      if tagBusy s p.ctx (f 32 2) false then .wait else .ok (emptyLaunch s die p (f 32 2) (launchRect d none).dies) cyc none
    else if !rectOk s die r then .err 2
    else
      let n := r.size
      let map := f 56 8
      let bytes := if map = 0 then some 0 else cpRead s die map n
      let strs := (List.range nst).map fun i => f (42 + 2 * i) 2
      let seqs := strs.map fun t => mapFind t p.named
      match bytes with
      | none => cpFails s die map n
      | some b =>
        let stages := (List.range n).map fun i => b / 256 ^ i % 256
        if stages.any (15 < ·) || stagesOutside (imageOf s p.ctx (BitVec.ofNat 64 (f 0 8))) n then .err 2
        else if seqs.any fun q => match q with
            | some (_, x, _) => !x
            | none => true then .err 5
        else if tagBusy s p.ctx (f 32 2) false || boardFull s r.dies || !handlesFree s p.ctx (BitVec.ofNat 64 (f 0 8)) then .wait
        else
          let cyc := cyc + if map = 0 then 0 else cpReadCycles s die map
          let clusters := rectClusters r.dies r.cfirst r.clast
          let uncovered := seqs.any fun q => match q.bind fun q => mapFind q.1 s.sb with
            | some (.xfer x) => !(clusters.all (rectClusters x.dies x.cfirst x.clast).contains)
            | _ => false
          let level := max (f 28 1) (s.ctx p.ctx).floor
          let since := s.now + cyc + launchCycles r.dies
          let k : Kernel :=
            { tag := f 32 2, ctx := p.ctx, die := die, dies := r.dies, cfirst := r.cfirst, clast := r.clast, level := level, eff := level, since := since
              entry := BitVec.ofNat 64 (f 0 8), args := (List.range 8).map fun i => BitVec.ofNat 64 (f (64 + 8 * i) 8), rsbase := BitVec.ofNat 64 (f 8 8), rsstride := f 24 4
              stages := stages, prods := (List.range npr).map fun i => f (34 + 2 * i) 2, strs := strs.zip (seqs.map fun q => (q.getD (0, true, 0)).1), tagTab := p.tagTab
              issued := false, placeable := none, toTrigger := 8 * n, running := 8 * n, retireAt := none, tagState := 1, uncovered := uncovered, rels := [] }
          let s := { s with tagRel := mapDel (tagKey p.ctx k.tag) s.tagRel }
          let s := tagWrite (loadHandles s p.ctx k.entry) die p.ctx p.tagTab k.tag 1 0
          .ok (enterEntry s die k.tag false fun _ => .kernel k) cyc none

/-- R341. -/
def execPktLaunch (die : Nat) (w a : BitVec 64) (s : State) : Out :=
  packet die w 1 (w.toNat % 2 ^ 48 = 0) (fun p => launch s die p a.toNat none 0) s

/-- R342: the extents are read now. -/
def execPktLaunchi (die : Nat) (w a b : BitVec 64) (s : State) : Out :=
  packet die w 2 (w.toNat % 2 ^ 48 = 0) (fun p =>
    match cpRead s die b.toNat 8 with
    | none => cpFails s die b.toNat 8
    | some z => launch s die p a.toNat (some z) (cpReadCycles s die b.toNat)) s

/-- R338, R343, R344: enters a stream transfer. -/
def execPktXfer (die : Nat) (w a b c : BitVec 64) (s : State) : Out :=
  let r := rectOf c.toNat
  let tag := w.toNat % 2 ^ 16
  packet die w 3 (w.toNat % 2 ^ 48 / 2 ^ 16 = 0 && b.toNat / 2 ^ 23 % 2 = 0 && b.toNat / 2 ^ 48 = 0 && r.zero) (fun p =>
    let off := b.toNat % 2 ^ 23
    let len := b.toNat / 2 ^ 24 % 2 ^ 24
    if !rectOk s die r || 2 ^ 23 < off + len then .err 2
    else if tagBusy s p.ctx tag true || boardFull s r.dies then .wait
    else
      let x : Xfer := { tag := tag, ctx := p.ctx, die := die, dies := r.dies, cfirst := r.cfirst, clast := r.clast, src := a, off := off, len := len, copying := false
                        resident := false, held := false, due := s.now + launchCycles r.dies }
      .ok (enterEntry s die tag true fun _ => .xfer x) 0 none) s

/-- Whether a transfer has landed all its bytes, by sequence number. -/
def xferLanded (s : State) (seq : Nat) : Bool :=
  match mapFind seq s.sb with
  | some (.xfer x) => x.resident
  | _ => (mapFind seq s.xfers).isNone

/-- What a WAIT on a tag that no packet of the stream has named comes to (R338): done at once where the tag's table entry is NONE, else
as the package's latest entry with that tag has it. The Bool says that it waits. -/
def waitOther (s : State) (die ctx : Nat) (tab : W64) (tag : Nat) : Bool :=
  (tagRead s die ctx tab tag).1 ≠ 0 &&
    ((s.sb.any fun e => match e.2 with
      | .kernel k => k.ctx = ctx && k.tag = tag
      | .xfer x => x.ctx = ctx && x.tag = tag && !x.resident) ||
     (s.xfers.any fun e => e.2.ctx = ctx && e.2.tag = tag) || decide (s.now < mapGet 0 (tagKey ctx tag) s.retired))

/-- R338, R345: waits for the entry that the tag names, of this stream or an earlier one of the context. -/
def execPktWait (die : Nat) (w : BitVec 64) (s : State) : Out :=
  let tag := w.toNat % 2 ^ 16
  packet die w 0 (w.toNat % 2 ^ 48 / 2 ^ 16 = 0) (fun p =>
    match mapFind tag p.named with
    | none => if (cpRead s die (p.tagTab.toNat + 2 * tag) 2).isNone then cpFails s die (p.tagTab.toNat + 2 * tag) 2 else if waitOther s die p.ctx p.tagTab tag then .wait else .ok s (cpReadCycles s die (p.tagTab.toNat + 2 * tag)) none
    | some (q, true, _) => if xferLanded s q then .ok s 0 none else .wait
    | some (q, false, t) =>
      if (mapFind q s.sb).isSome then .wait
      else if s.now < t then .wait
      else .ok s 0 none) s

/-! ### The command processor's turn -/

/-- The instruction of a packet whose words have been read; none for an unassigned OP. -/
def packetInstr (die op : Nat) (w a b c : W64) : Option Instr :=
  match op with
  | 0 => some (.pktEnd die w)
  | 1 => some (.pktLaunch die w a)
  | 2 => some (.pktLaunchi die w a b)
  | 3 => some (.pktXfer die w a b c)
  | 4 => some (.pktLoop die w)
  | 5 => some (.pktLoopi die w a)
  | 6 => some (.pktEndloop die w)
  | 7 => some (.pktSkipif die w a b)
  | 8 => some (.pktWait die w)
  | _ => none
/-- Words after the header, by OP (R338). -/
def packetWords (op : Nat) : Nat := match op with
  | 1 => 1 | 2 => 2 | 3 => 3 | 5 => 1 | 7 => 2
  | _ => 0

/-- Whether the context that a die's stream belongs to is paused there (R354). -/
def streamPaused (s : State) (die : Nat) : Bool := (s.ctx (s.die die).cp.ctx).paused.contains die

/-- The pages that a launch's descriptor and its STAGEMAP take, and its tag's entry. -/
def launchVas (s : State) (die : Nat) (p : CmdProc) (desc : Nat) (size : Option Nat) : List Nat :=
  pageVas desc 128 ++
    match cpRead s die desc 128 with
    | none => []
    | some d => (if descAt d 56 8 = 0 then [] else pageVas (descAt d 56 8) (launchRect d size).size) ++ [p.tagTab.toNat + 2 * descAt d 32 2]
/-- The addresses that a packet uses beside its own words (R337, R358). -/
def packetVas (s : State) (die op : Nat) (w a b : W64) : List Nat :=
  let p := (s.die die).cp
  p.status.toNat :: match op with
  | 1 => launchVas s die p a.toNat none
  | 2 => pageVas b.toNat 8 ++ launchVas s die p a.toNat (cpRead s die b.toNat 8)
  | 5 => pageVas a.toNat 4
  | 7 => pageVas a.toNat 8 ++ if p.loops.isEmpty then [] else pageVas (p.start.toNat + p.off + 24) (8 * (w.toNat % 2 ^ 16))
  | 8 => [p.tagTab.toNat + 2 * (w.toNat % 2 ^ 16)]
  | _ => []

/-- A command processor in a nominal cycle: reaches a packet, passes over one of a loop with count 0, or stops. One that owes a write, or has
read poison, executes nothing (R357, R361, R367). -/
def cpTurn (s : State) (die : Nat) : State :=
  let p := (s.die die).cp
  if !p.running || s.now < p.due || streamPaused s die || !(s.die die).owed.isEmpty || (s.die die).cpHeld then s
  else
    let stop (err : Nat) : State := endTransfers (stopStream s die 2 err p.off) die p.ctx
    let at_ := p.start.toNat + p.off
    let fails (va n : Nat) : State := match cpFault s die va n with
      | some (a, true) => cpPoison s die a
      | _ => stop 4
    match cpWalk s die (pageVas at_ 8), cpRead s die at_ 8 with
    | some t, _ => t
    | none, none => fails at_ 8
    | none, some h =>
      let op := h / 2 ^ 56
      if p.skipping ≠ 0 then
        if op = 0 then stop 3
        else if 8 < op then stop 1
        else
          s.modCp die fun q => { q with off := q.off + 8 * (1 + h / 2 ^ 48 % 256), due := s.now + 20
                                        skipping := if op = 6 then q.skipping - 1 else if op = 4 ∨ op = 5 then q.skipping + 1 else q.skipping }
      else
        match cpWalk s die (pageVas (at_ + 8) (8 * packetWords op)), cpRead s die (at_ + 8) (8 * packetWords op) with
        | some t, _ => t
        | none, none => fails (at_ + 8) (8 * packetWords op)
        | none, some x =>
          let word (i : Nat) : W64 := BitVec.ofNat 64 (x / 2 ^ (64 * i))
          match packetInstr die op (BitVec.ofNat 64 h) (word 0) (word 1) (word 2), cpWalk s die (packetVas s die op (BitVec.ofNat 64 h) (word 0) (word 1)) with
          | none, _ => stop 1
          | some _, some t => t
          | some i, none => { s with agenda := s.agenda ++ [.event i] }

end Sys2Proof.Machine
end

