-- ==== Sys2Proof/Machine/Launch.lean ====
section
/-! DEFINITION. The stream controllers: residency, priority and issue, the start of strands, ageing, retirement (R9, R38 to R41,
R125, R172, R341 to R347), throttling and the watchdog (R350 to R354). -/
namespace Sys2Proof.Machine

/-! ### Priority and issue (R344, R346, R347) -/

/-- The entries of the scoreboards of the dies that run (R371). -/
def liveEntries (s : State) : SMap Entry := s.sb.filter fun e => match e.2 with
  | .kernel k => !dieStopped s k.die
  | .xfer x => !dieStopped s x.die
/-- The waiting kernel entries of the scoreboards, in scan order (R346). -/
def waitingKernels (s : State) : List (Nat × Kernel) :=
  let l := (liveEntries s).filterMap fun e => match e.2 with
    | .kernel k => if k.issued || s.now < k.since then none else some (e.1, k)
    | .xfer _ => none
  l.mergeSort fun a b => a.2.eff < b.2.eff || (a.2.eff = b.2.eff && a.1 ≤ b.1)

/-- A transfer by its sequence number, whether its entry stands on the scoreboards or has left them (R345). -/
def xferOf (s : State) (seq : Nat) : Option Xfer :=
  match mapFind seq s.sb with
  | some (.xfer x) => some x
  | some (.kernel _) => none
  | none => mapFind seq s.xfers
def setXfer (s : State) (seq : Nat) (x : Xfer) : State :=
  match mapFind seq s.sb with
  | some _ => { s with sb := mapSet seq (.xfer x) s.sb }
  | none => { s with xfers := mapSet seq x s.xfers }
/-- A transfer's bytes have all landed: off the scoreboards nothing of it remains. -/
def landXfer (s : State) (seq : Nat) (x : Xfer) : State :=
  match mapFind seq s.sb with
  | some _ => { s with sb := mapSet seq (.xfer { x with resident := true }) s.sb }
  | none => { s with xfers := mapDel seq s.xfers }

/-- READY (R344): declared streams resident in every cluster of the kernel, cores IDLE and held by no launch (R330). -/
def kernelReady (s : State) (k : Kernel) : Bool :=
  !k.uncovered && (k.strs.all fun t => (xferOf s t.2).all Xfer.resident) && k.cores.all fun c => (s.core c).mir.st = .idle && !(s.core c).launched
/-- Whether two rectangles share a cluster. -/
def overlaps (a b : Kernel) : Bool := a.cfirst ≤ b.clast && b.cfirst ≤ a.clast && a.dies.any b.dies.contains
/-- Whether the watchdog's pause holds an entry on one of its dies (R354). -/
def entryPaused (s : State) (k : Kernel) : Bool := k.dies.any (s.ctx k.ctx).paused.contains
/-- Cycles from becoming placeable to issue (R355). -/
def issueCycles (k : Kernel) : Nat :=
  match k.dies with
  | [_] => 8
  | d :: _ => 8 + 2 * (k.dies.map (legCy d)).foldl max 0
  | [] => 8

/-- One cycle of the controllers: which waiting entries are placeable, since when, and the issues that are due, at most one on
a die. -/
def issueTurn (s : State) : State :=
  let l := waitingKernels s
  let r := l.foldl (fun (acc : State × List Kernel × List Nat) e =>
    let (s, before, used) := acc
    let k := e.2
    let free := kernelReady s k && !entryPaused s k && !(before.any fun b => overlaps b k)
    if !free then (if k.placeable.isSome then setKernel s e.1 { k with placeable := none } else s, k :: before, used)
    else
      match k.placeable with
      | none => (setKernel s e.1 { k with placeable := some s.now }, k :: before, used)
      | some t =>
        if t + issueCycles k ≤ s.now && !(k.dies.any used.contains) then ({ s with agenda := s.agenda ++ [.event (.entryIssue e.1)] }, k :: before, used ++ k.dies)
        else (s, k :: before, used)) (s, [], [])
  r.1

/-! ### The loader (R38 to R41, R75, R114) -/

/-- Writes cells as the loader, a system writer (R114, R115). DESIGN CHOICE (log entry 75): the loader writes byte by byte, so no access of it covers a
granule and poison stays (R367). -/
def loadCells (s : State) (base : Nat) (l : List (Nat × Byte)) : State :=
  { s with mem := l.foldl (fun m e => memPut m (base + e.1) e.2) s.mem
           shadow := ((l.map fun e => (base + e.1) / 64).eraseDups).foldl (fun m x => mapSet x ⟨systemUnit 0 0, 0, 4⟩ m) s.shadow }

/-- The granules of core memory that the image of a static ring writes: the loader sets their bits (R38). -/
def imageFull (i : Image) : List Nat :=
  ((i.core.filter fun e => i.rings.any fun r => r.2.2.2 && decide (r.2.1 ≤ e.1) && decide (e.1 < r.2.1 + 8 * r.2.2.1)).map fun e => e.1 / 16).eraseDups

/-- Before a launch starts: the shadow records of its memories are empty, its full-empty bits clear, its images written. -/
def loadImage (s : State) (k : Kernel) : State :=
  let img := imageOf s k.ctx k.entry
  let s := k.clusters.foldl (fun s c =>
    let b := clusterBase c
    loadCells { s with shadow := mapDelRange (b / 64) ((b + 2 ^ 23) / 64) s.shadow } b img.cluster) s
  k.cores.foldl (fun s c =>
    let b := coreBase c
    let s := { s with shadow := mapDelRange (b / 64) ((b + 2 ^ 19) / 64) s.shadow, full := mapDelRange (b / 16) ((b + 2 ^ 19) / 16) s.full }
    let s := loadCells s b img.core
    { s with full := (imageFull img).foldl (fun m g => mapSet (b / 16 + g) none m) s.full }) s

/-- R346, R355: the entry issues: its cores are held, its images loaded; a strand starts so that its first
instruction, fetched from the cluster cache, issues 60 cycles later. -/
def execEntryIssue (seq : Nat) (s : State) : Out :=
  match kernelOf s seq with
  | none => .refused .notEnabled
  | some k =>
    if k.issued || !kernelReady s k then .refused .notEnabled
    else
      let s := loadImage (setKernel s seq { k with issued := true }) k
      .next (k.cores.foldl (fun s c =>
        (s.modCore c fun x => { x with launched := true, kern := seq }).schedule (s.now + 58) (.strandStart c)) s)

/-! ### The start of a strand (R125, R172, R236, R341) -/

/-- The words of a ring's initial image: up to the last one of which the loader places a byte (R38). -/
def imageWords (i : Image) (base size : Nat) : Nat :=
  (i.core.filter fun e => decide (base ≤ e.1) && decide (e.1 < base + 8 * size)).foldl (fun n e => max n ((e.1 - base) / 8 + 1)) 0

/-- The rings an image declares (R13, R38): head and tail at the base. -/
def imageRings (i : Image) : SMap Eng :=
  i.rings.foldl (fun m r => mapSet r.1 { Eng.reset with ring :=
    { Ring.reset with declared := true, base := r.2.1, size := r.2.2.1, isStatic := r.2.2.2, image := if r.2.2.2 then imageWords i r.2.1 r.2.2.1 else 0 } } m) []

/-- The launch state of a core (R172): what belongs to the context stays. -/
def startCore (k : Kernel) (seq lclus core : Nat) (img : Image) (o : Core) : Core :=
  let top := (k.rsbase.toNat + k.rsstride * (lclus * 8 + core)) % 2 ^ 52
  { Core.reset with
    mir := { o.mir with st := .running }, ctx := k.ctx, kern := seq, stage := k.stages.getD lclus 0, lclus := lclus
    lcount := k.clusters.length, cur := k.eff, cy := o.cy
    su := { SUnit.reset with x := ((k.args.zipIdx).map fun a => (a.2 + 1, a.1)).filter fun e => e.2 ≠ 0
                             pc := k.entry, rspill := spillWord 0 top, next := o.cy + 1 }
    pr := { PrismCore.reset with bound := true, roster := true }
    q := { Queues.reset with msgs := o.q.msgs }
    eng := imageRings img
    v := { VUnit.reset with coder := o.v.coder, cdf := o.v.cdf, q := o.v.q, next := o.cy + 1 }
    m := { MUnit.reset with stores := o.m.stores }
    rm := o.rm, race := o.race.map fun e => (e.1, { RaceUnit.reset with ivl := e.2.ivl }) }

/-- R341, R125: a strand begins at its first instruction; its cluster's front end begins at the entry label. -/
def execStrandStart (core : Nat) (s : State) : Out :=
  let o := s.core core
  match kernelOf s o.kern with
  | none => .refused .notEnabled
  | some k =>
    if !o.launched then .refused .notEnabled
    else
      let img := imageOf s k.ctx k.entry
      let s := swapContext s k.ctx core
      let s := s.setCore core (startCore k o.kern (k.lclus core) (laneOf core) img (s.core core))
      .next (s.modCluster (clusterOf core) fun u => { u with fe := { u.fe with pc := k.entry, idle := false, ctx := k.ctx, voting := none, resolveAt := none, joining := none, req := none, line := none, failed := 0 } })

/-! ### Ageing (R347) -/

/-- The least level an entry can fall to: that of the waiting entries that are older and more urgent. -/
def ageFloor (s : State) (seq : Nat) (k : Kernel) : Nat :=
  s.sb.foldl (fun m e => match e.2 with
    | .kernel j => if e.1 < seq && j.level < k.level && !j.issued then max m j.eff else m
    | .xfer _ => m) 0

/-- R347: 65,536 cycles of waiting lower the effective level by one. -/
def execPriorityAgeing (seq : Nat) (s : State) : Out :=
  match kernelOf s seq with
  | none => .refused .notEnabled
  | some k =>
    if k.issued || s.now ≤ k.since || (s.now - k.since) % 65536 ≠ 0 then .refused .notEnabled
    else .next (setKernel s seq { k with eff := max (ageFloor s seq k) (k.eff - 1) })

/-- The entries whose waiting reaches a multiple of 65,536 cycles now, oldest first. -/
def ageingDue (s : State) : List Nat :=
  (liveEntries s).filterMap fun e => match e.2 with
    | .kernel k => if !k.issued && decide (k.since < s.now) && (s.now - k.since) % 65536 = 0 then some e.1 else none
    | .xfer _ => none

/-! ### Transfers (R344, R345) -/

/-- Whether an earlier kernel entry that declared the tag has not retired. -/
def xferHeld (s : State) (seq : Nat) (x : Xfer) : Bool :=
  s.sb.any fun e => match e.2 with
    | .kernel k => e.1 < seq && k.ctx = x.ctx && k.strs.any fun t => t.1 = x.tag
    | .xfer _ => false

/-- R344, R345: a transfer starts copying, and its predecessor with the same tag retires. -/
def execXferCopyStart (seq : Nat) (s : State) : Out :=
  match xferOf s seq with
  | some x =>
    if x.copying || x.resident || s.now < x.due || xferHeld s seq x then .refused .notEnabled
    else
      let s := retireXfers s fun n y => decide (n < seq) && y.ctx = x.ctx && y.tag = x.tag
      .next (setXfer s seq { x with copying := true, due := s.now + 1 + Config.xferCycles seq })
  | none => .refused .notEnabled

/-- The source pieces of a transfer, or the cause, the INFO and the address of the fault it meets (R357, R362, R367). -/
def xferSource (s : State) (x : Xfer) : (Nat × Nat × Nat) ⊕ List (Nat × Nat × Nat) :=
  let all := pagePieces x.src.toNat x.len
  let l := mappedPieces s x.ctx false all
  if x.len = 0 then .inr []
  else if spaceOf x.src.toNat ≠ some .device then .inl (0x10, 0, x.src.toNat)
  else if l.length < all.length then
    match walkOf s x.ctx ((all.getD l.length (0, 0, 0)).1) with
    | .fail cause level _ => .inl (cause, walkInfo level false false, (all.getD l.length (0, 0, 0)).1)
    | .leaf _ _ => .inl (0x10, 0, x.src.toNat)
  else if piecesPoisoned s l then .inl (0x53, 0, x.src.toNat)
  else .inr l

/-- R344: every byte has landed in every cluster. A source that faults stops the transfer until system software acts (R361). -/
def execXferResident (seq : Nat) (s : State) : Out :=
  match xferOf s seq with
  | some x =>
    if !x.copying || x.resident || x.held || s.now < x.due then .refused .notEnabled
    else
      .next (match xferSource s x with
        | .inl (cause, info, va) =>
          let s := setXfer s seq { x with held := true }
          postRecord s x.die { seq := 0, core := 0xFFFF, unit := 9, cause := cause, ctx := x.ctx, kind := if cause = 0x53 ∨ cause = 0x10 then 0 else 1, addr := BitVec.ofNat 64 va, info := BitVec.ofNat 64 info
                               cycle := BitVec.ofNat 32 s.now, owner := seq, agent := 98, after := false }
        | .inr l =>
          let s := (rectClusters x.dies x.cfirst x.clast).foldl (fun s c =>
            l.foldl (fun s p => systemWrite s (systemUnit (dieOfCluster c) 17) (clusterBase c + x.off + p.2.1) (memBytes s.mem p.1 p.2.2)) s) s
          landXfer s seq x)
  | none => .refused .notEnabled

/-- The step of a transfer that may happen now. -/
def xferStep (s : State) (seq : Nat) (x : Xfer) : Option Instr :=
  if x.resident || x.held || decide (s.now < x.due) then none
  else if x.copying then some (.xferResident seq)
  else if xferHeld s seq x then none
  else some (.xferCopyStart seq)
/-- The steps of transfers that may happen now. -/
def xferDue (s : State) : List Instr :=
  (s.xfers.filterMap fun e => if dieStopped s e.2.die then none else xferStep s e.1 e.2) ++ (liveEntries s).filterMap fun e => match e.2 with
    | .xfer x => xferStep s e.1 x
    | .kernel _ => none

/-! ### Retirement (R345) -/

/-- What a discarded strand of an entry has left under way: copy entries in the channels, and rows that M has drained. Their accesses have not all
performed (R326, R345). -/
def copiesLeft (s : State) (seq : Nat) : Bool :=
  (s.clusters.any fun u => u.2.chans.any fun x => x.2.queue.any fun e => !e.live && !e.port && e.kern = seq) || s.cores.any fun k => k.2.m.stores.any fun r => r.kern = seq

/-- R345: every strand has ended and its accesses have performed; the entry releases them and leaves the scoreboards, and WAIT can
complete 120 cycles later (R355). -/
def execKernelRetire (seq : Nat) (s : State) : Out :=
  match kernelOf s seq with
  | none => .refused .notEnabled
  | some k =>
    match k.retireAt with
    | none => .refused .notEnabled
    | some t =>
      if s.now < t || copiesLeft s seq then .refused .notEnabled
      else
        let key := tagKey k.ctx k.tag
        let s := { s with sb := mapDel seq s.sb, retired := mapSet key (s.now + 120) s.retired, tagRel := mapSet key ((mergeRels ((mapFind key s.tagRel).toList ++ k.rels)).headD Rel.none) s.tagRel }
        .next (([0, 1, 2, 3] : List Nat).foldl (fun s d => s.modCp d fun p =>
          { p with named := p.named.map fun e => if e.2.1 = seq && !e.2.2.1 then (e.1, (seq, false, s.now + 120)) else e }) s)
def retiresDue (s : State) : List Instr :=
  (liveEntries s).filterMap fun e => match e.2 with
    | .kernel k => (match k.retireAt with
      | some t => if t ≤ s.now && !copiesLeft s e.1 then some (.kernelRetire e.1) else none
      | none => none)
    | .xfer _ => none

/-! ### Throttling (R350) -/

/-- R350: a window of 64 pulses begins with the count that was set last. -/
def execThrottleWindow (cl : Nat) (s : State) : Out :=
  if s.now % 64 ≠ 0 then .refused .notEnabled else .next (s.modCluster cl fun u => { u with swallow := u.swallowNext })

/-- Whether a pulse of the window is swallowed: n of 64, spread evenly (log entry 24). -/
def swallowed (n i : Nat) : Bool := i * n / 64 < (i + 1) * n / 64

/-! ### The watchdog (R352 to R354) -/

/-- Whether an address lies in a context's wake region (R353). -/
def inWake (x : Ctx) (va : Nat) : Bool :=
  let w := x.wake.toNat
  let lo := w % 2 ^ 52 / 2 ^ 12 * 2 ^ 12
  w % 2 = 1 && decide (lo ≤ va) && decide (va < lo + 2 ^ (12 + w / 2 % 16))
/-- Whether a strand is waiting in the sense of R353: parked in the wake region, between such a park and the next on the same sector
with the same value, or in `dwait`. -/
def isWaiting (s : State) (c : Nat) : Bool :=
  let k := s.core c
  match k.su.wait with
  | .park _ _ => inWake (s.ctx k.ctx) k.wd.lastVa
  | .stalled => (match decodeScalar k.su.word with
    | some (.dwait _ _ _) => true
    | _ => false)
  | _ => k.wd.tainted && inWake (s.ctx k.ctx) k.wd.lastVa

/-- One domain cycle of a strand's watchdog (R352). -/
def watchCycle (s : State) (c : Nat) : State :=
  let w := (s.core c).wd
  if !w.started then s else s.modWd c fun w => { w with pos := w.pos + 1, waiting := w.waiting && isWaiting s c }
/-- Cycles of an interval of a strand's context. -/
def intervalOf (s : State) (c : Nat) : Nat := (s.ctxOf c).interval * 1024

/-- The first instruction of a strand: its cycle is the first of its intervals (R352). -/
def watchStart (s : State) (c : Nat) : State :=
  if (s.core c).wd.started then s else s.modWd c fun w => { w with started := true, pos := 1, prog := false, waiting := true }

/-- R354: every strand of the context is frozen and saved, its stream and its entries pause. -/
def preempt (s : State) (ctx : Nat) : State :=
  let mine := s.cores.filterMap fun e => if e.2.ctx = ctx && (e.2.mir.st = .running || e.2.mir.st = .frozen) then some e.1 else none
  let s := mine.foldl (fun s c =>
    let s := if (s.core c).mir.st = .running then freezeCore s c else s
    s.modMir c fun m => if m.busy then m else { m with busy := true, saving := some 0, err := 0 }) s
  s.modCtx ctx fun x => { x with paused := [0, 1, 2, 3] }

/-- R352, R354: the end of an interval; the watchdog fires when NOPROG reaches LIMIT, and the context is pre-empted at the cycle
boundary. -/
def execWatchdogIntervalEnd (core : Nat) (s : State) : Out :=
  let k := s.core core
  if !k.wd.started || k.wd.pos < intervalOf s core then .refused .notEnabled
  else
    let n := if k.wd.prog then 0 else if k.wd.waiting then k.wd.noprog else k.wd.noprog + 1
    let limit := (s.ctxOf core).limit
    let s := s.modWd core fun w => { w with noprog := n, prog := false, waiting := true, pos := 0 }
    if limit ≠ 0 && decide (limit ≤ n) && decide (k.wd.noprog < n) then
      let s := s.modCtx k.ctx fun x => { x with preempting := true }
      .next (postRecord s (dieOf core) (coreRecord s core 0 0x50 3 k.su.pc (BitVec.ofNat 64 k.wd.parks) 99 false))
    else .next s

/-- R354: system software resumes the stream and the entries of a context on a die. -/
def resumeContext (s : State) (die ctx : Nat) : State := s.modCtx ctx fun x => { x with paused := x.paused.filter (· ≠ die) }
def execCmdResume (die ctx : Nat) (s : State) : Out := windowed s (.next (resumeContext s die ctx))

end Sys2Proof.Machine
end

