-- ==== Sys2Proof/Machine/Delivery.lean ====
section
/-! DEFINITION. The delivery units and the repetition detector (R373 to R378), partitions (R379), Tsuiq ports and host writes
(R381, R382), writes by system writers (R115). -/
namespace Sys2Proof.Machine

/-! ### The descriptor, the slots and the ring (R373, R374, R376) -/

/-- A delivery descriptor (R373). -/
structure DlvDesc where
  ring : Nat
  slots : Nat
  nslot : Nat
  reps : Nat
  trap : Bool
  code : Nat
  deriving DecidableEq, Repr

/-- The context that a die's delivery unit serves. -/
def dlvCtx (s : State) (die : Nat) : Nat := (s.die die).cp.ctx
def dlvEnabled (s : State) (die : Nat) : Bool := (s.die die).dlv.getLsbD 0

/-- The cause and INFO of the unit's fault at an address that its translation does not give. -/
def dlvCause (s : State) (die va : Nat) (write : Bool) : Nat × Nat :=
  match walkOf s (dlvCtx s die) va with
  | .fail cause level _ => (cause, walkInfo level write false)
  | .leaf _ _ => (if write && spaceOf va = some .device then 0x15 else 0x10, 0)

/-- The unit reads bytes in its context, each page by its own translation; cause and INFO where a translation faults or the data are poisoned. -/
def dlvRead (s : State) (die va n : Nat) : (Nat × Nat) ⊕ Nat :=
  (pageVas va n).foldr (fun p rest =>
    let m := min (va + n) ((p / 65536 + 1) * 65536) - p
    match dieAddr s (160 + die) (dlvCtx s die) p false, rest with
    | none, _ => .inl (dlvCause s die p false)
    | some pa, rest => if rangePoisoned s pa m then .inl (0x53, 0) else rest.map id fun v => memNat s.mem pa m + 256 ^ m * v) (.inr 0)

def dlvDesc (s : State) (die : Nat) : (Nat × Nat) ⊕ DlvDesc :=
  (dlvRead s die ((s.die die).dlv.toNat / 16 * 16) 32).map id fun v =>
    { ring := v % 2 ^ 52, slots := v / 2 ^ 64 % 2 ^ 52, nslot := v / 2 ^ 128 % 65536, reps := v / 2 ^ 144 % 256, trap := v.testBit 152, code := v / 2 ^ 160 % 65536 }

/-- An atomic write at system scope by the unit (R374); it may write relaxed pages. -/
def dlvWrite (s : State) (die va v n : Nat) : State :=
  match dieAddr s (160 + die) (dlvCtx s die) va true with
  | some pa => pokeBytes s ⟨0, 160, 0, 0, dlvCtx s die⟩ pa (natBytes v n) false
  | none => s
/-- The address that the unit could not write, when there is one. -/
def dlvBlocked (s : State) (die : Nat) (l : List Nat) : Option Nat := l.find? fun va => (dieAddr s (160 + die) (dlvCtx s die) va true).isNone

/-- R373. -/
def setDlv (s : State) (die : Nat) (w : W64) : State :=
  s.modDie die fun d => { d with dlv := w &&& 0x000FFFFFFFFFFFF1, dlvPos := 0, hist := [], dlvHeld := false }
def execDlvDescWrite (die : Nat) (w : BitVec 64) (s : State) : Out := windowed s (.next (setDlv s die w))

/-! ### The repetition detector (R377) -/

/-- Whether the newest tokens, the last of which is POS n, repeat with a period. -/
def repeats (h : List W32) (n reps l : Nat) : Bool :=
  decide (reps * l ≤ h.length) && decide (reps * l ≤ n + 1) && (List.range ((reps - 1) * l)).all fun i => h[i]? = h[i + l]?
/-- The least period from 1 to 16 (R377). -/
def periodOf (h : List W32) (n reps : Nat) : Option Nat :=
  if reps = 0 then none else ((List.range 16).map (· + 1)).find? (repeats h n reps)

/-! ### A turn (R376) -/

/-- The slots in the order in which the unit looks at them. -/
def slotOrder (s : State) (die : Nat) (d : DlvDesc) : List Nat := (List.range d.nslot).map fun i => ((s.die die).dlvPos + i) % d.nslot
/-- The slot of the unit's turn: the next open one that has a token, or one before it that cannot be read. -/
def nextSlot (s : State) (die : Nat) (d : DlvDesc) : Option Nat :=
  (slotOrder s die d).find? fun n =>
    match dlvRead s die (d.slots + 128 * n) 16 with
    | .inr v => v.testBit 64 && v % 2 ^ 32 ≠ v / 2 ^ 32 % 2 ^ 32
    | .inl _ => true
/-- The addresses that a turn at a slot uses (R358): the ring's header and its next record, and the slots looked at. -/
def turnVas (s : State) (die : Nat) (d : DlvDesc) (n : Nat) : List Nat :=
  d.ring :: (((slotOrder s die d).takeWhile (· ≠ n)) ++ [n]).flatMap (fun i => pageVas (d.slots + 128 * i) 128) ++
    match dlvRead s die d.ring 16 with
    | .inr r => [d.ring + 16 + 16 * (r % 2 ^ 32 % (r / 2 ^ 64 % 2 ^ 32))]
    | .inl _ => []

/-- A fault of the unit: a record with UNIT 8; it waits for an acknowledgement (R357, R360, R362). -/
def dlvFault (s : State) (die : Nat) (f : Nat × Nat) (va : Nat) : State :=
  let cause := f.1
  let s := s.modDie die fun d => { d with dlvHeld := true }
  postRecord s die { seq := 0, core := 0xFFFF, unit := 8, cause := cause, ctx := dlvCtx s die, kind := if cause = 0x14 ∨ cause = 0x18 ∨ cause = 0x1A then 1 else 0
                     addr := BitVec.ofNat 64 va, info := BitVec.ofNat 64 f.2, cycle := BitVec.ofNat 32 s.now, owner := die, agent := 97, after := false }

/-- Moves the next token of a slot to the ring (R376, R377, R378): the record, TAIL, DELIVS, and the marks of a repetition. DESIGN CHOICE (log entry 71): the
unit's vector is signalled once for each record. -/
def deliver (s : State) (die : Nat) (d : DlvDesc) (n tail cap head : Nat) : State :=
  let at_ := d.slots + 128 * n
  let pos := head / 2 ^ 32 % 2 ^ 32
  let flags := head / 2 ^ 64 % 2 ^ 32
  match dlvRead s die (at_ + 16 + 8 * (pos % 8)) 8 with
  | .inl f => dlvFault s die f at_
  | .inr e =>
    let rec_ := d.ring + 16 + 16 * (tail % cap)
    match dlvBlocked s die [rec_, d.ring, at_] with
    | some va => dlvFault s die (dlvCause s die va true) va
    | none =>
      let tok : W32 := BitVec.ofNat 32 e
      let h := (tok :: mapGet [] n (s.die die).hist).take 128
      let period := if flags.testBit 1 then none else periodOf h pos d.reps
      let p := period.getD 0
      let s := dlvWrite s die rec_ e 8
      let s := dlvWrite s die (rec_ + 8) (pos + n % 65536 * 2 ^ 32 + p * 2 ^ 48 + if p = 0 then 0 else 2 ^ 56) 8
      let s := dlvWrite s die d.ring ((tail + 1) % 2 ^ 32) 4
      let s := if p = 0 then s else dlvWrite s die (at_ + 8) (flags ||| 2 ||| if d.trap then 4 else 0) 4
      let s := dlvWrite s die (at_ + 4) ((pos + 1) % 2 ^ 32) 4
      s.modDie die fun x =>
        { x with dlvPos := (n + 1) % d.nslot, dlvRaised := x.dlvRaised + 1, hist := if d.reps = 0 then x.hist else mapSet n h x.hist }

/-- The walk that the unit waits for before it uses addresses (R358). -/
def dlvWalk (s : State) (die : Nat) (vas : List Nat) : Option State := dieWalk s (160 + die) (dlvCtx s die) (die, 514) true vas

/-- R376: a delivery unit's turn; while the ring is full it waits. -/
def execDeliveryTurn (die : Nat) (s : State) : Out :=
  if !dlvEnabled s die || (s.die die).dlvHeld then .refused .notEnabled
  else
    match dlvWalk s die (pageVas ((s.die die).dlv.toNat / 16 * 16) 32), dlvDesc s die with
    | some t, _ => .next t
    | none, .inl f => .next (dlvFault s die f ((s.die die).dlv.toNat / 16 * 16))
    | none, .inr d =>
      match nextSlot s die d, (nextSlot s die d).bind fun n => dlvWalk s die (turnVas s die d n) with
      | none, _ => .refused .notEnabled
      | some _, some t => .next t
      | some n, none =>
        match dlvRead s die d.ring 16, dlvRead s die (d.slots + 128 * n) 16 with
        | .inr r, .inr head =>
          let tail := r % 2 ^ 32
          let cap := r / 2 ^ 64 % 2 ^ 32
          if (tail + 2 ^ 32 - r / 2 ^ 32 % 2 ^ 32) % 2 ^ 32 = cap then .refused .notEnabled
          else .next (deliver s die d n tail cap head)
        | .inl f, _ => .next (dlvFault s die f d.ring)
        | _, .inl f => .next (dlvFault s die f (d.slots + 128 * n))

/-! ### The trap of a repetition (R378) -/

/-- The first slot whose TRAPREQ is set and whose OWNER is a core that runs a strand of the unit's context: die, slot and descriptor. -/
def repRequest (s : State) (core : Nat) : Option (Nat × Nat × DlvDesc) :=
  ([0, 1, 2, 3] : List Nat).findSome? fun die =>
    if !dlvEnabled s die || (s.core core).ctx ≠ dlvCtx s die then none
    else
      match dlvDesc s die with
      | .inl _ => none
      | .inr d =>
        ((List.range d.nslot).find? fun n =>
          match dlvRead s die (d.slots + 128 * n) 16 with
          | .inr v => v.testBit 66 && v / 2 ^ 112 % 65536 = core
          | .inl _ => false).map fun n => (die, n, d)

/-- Whether S is between two instructions: it waits for nothing but its next issue, and none is part-done (R174, R378). -/
def betweenInstrs (u : SUnit) : Bool := u.steps = 0 && match u.wait with
  | .idle | .stalled | .passed => true
  | _ => false

/-- R378: S takes cause 0x0C with REPCODE, as though it had executed `swtrap`, and the unit clears TRAPREQ. -/
def execRepetitionTrap (core : Nat) (s : State) : Out :=
  match repRequest s core with
  | none => .refused .notEnabled
  | some (die, n, d) =>
    if (s.core core).mir.st ≠ .running || !betweenInstrs (s.core core).su then .refused .notEnabled
    else
      let at_ := d.slots + 128 * n + 8
      let f := match dlvRead s die at_ 4 with
        | .inr v => v
        | .inl _ => 0
      let s := dlvWrite s die at_ (f - if f.testBit 2 then 4 else 0) 4
      let s := s.modS core fun u => { u with word := sysWord 0 101 2 (BitVec.ofNat 16 d.code), wait := .idle }
      .next (trapS s core 0x0C d.code none)

/-! ### Partitions (R379) -/

/-- R379: refused while a context exists, and with MODE 3. -/
def setPart (s : State) (w : W64) : State :=
  if w.toNat % 4 = 3 || s.ctxs.any fun x => x.2.live then s else { s with sys := { s.sys with part := w.toNat % 4 } }
def execSysPartWrite (w : BitVec 64) (s : State) : Out := windowed s (.next (setPart s w))

/-! ### Tsuiq ports and the PCIe endpoint (R381, R382) -/

/-- R381: a port starts a copy of a range of its partition's device memory; a busy port takes none. DESIGN CHOICE (log entry 55): a source at or above 192 GiB of a
die is read as though memory stood there. -/
def execTsuiqCopy (port src dst len tag : Nat) (s : State) : Out :=
  .next (
    if (mapFind port s.ports).isSome || 24 ≤ port || s.sys.portsOff.contains port || 2 ^ 40 < src + len || partOf s (src / 2 ^ 38 % 4) ≠ partOf s (port / 6) || partOf s ((src + len - 1) / 2 ^ 38 % 4) ≠ partOf s (port / 6) then s
    else { s with ports := mapSet port ⟨src, dst, len, tag, s.now + 1 + Config.portCycles (s.now * 24 + port)⟩ s.ports })

/-- The completion record at the destination, written last. -/
def completeCopy (s : State) (port status bytes tag : Nat) : State :=
  { s with ports := mapDel port s.ports, sent := mapSet port ((status, bytes, tag) :: mapGet [] port s.sent) s.sent }

/-- The bytes of a range before the first that holds poison: those behind it are not read (R367). -/
def cleanBytes (s : State) (src len : Nat) : Nat :=
  s.poison.foldl (fun n e => if src < 16 * e.1 + 64 ∧ 16 * e.1 < src + n then 16 * e.1 - src else n) len

/-- R381: the copy ends; every byte stands at the destination before its record. The far end may refuse the address. A source that
holds poison ends the copy there, with a STATUS that is not zero (R367; log entry 25). -/
def execTsuiqCopyComplete (port : Nat) (s : State) : Out :=
  match mapFind port s.ports with
  | none => .refused .notEnabled
  | some x =>
    if s.now < x.due then .refused .notEnabled
    else
    .next (
      if Config.remoteRefuses x.dst then completeCopy s port 2 0 x.tag
      else
        let n := cleanBytes s x.src x.len
        let far := memPutBytes (mapGet [] port s.remote) x.dst (memBytes s.mem x.src n)
        completeCopy { s with remote := mapSet port far s.remote } port (if n = x.len then 0 else 1) (n % 2 ^ 32) x.tag)

/-- R381: the link is lost during a copy: STATUS 1, and the bytes that had landed. -/
def execTsuiqLinkLost (port : Nat) (s : State) : Out :=
  match mapFind port s.ports with
  | none => .next s
  | some x =>
    let n := cleanBytes s x.src (min x.len (Config.landedBytes x.tag))
    let far := memPutBytes (mapGet [] port s.remote) x.dst (memBytes s.mem x.src n)
    .next (completeCopy { s with remote := mapSet port far s.remote } port 1 (n % 2 ^ 32) x.tag)

/-- The physical address of an offset of a function's BAR2 (R382). DESIGN CHOICE (log entry 71): a page without a translation, or with one that leaves the
function's partition, has none. -/
def bar2Addr (s : State) (fn off : Nat) : Option Nat :=
  (mapFind (fn * 2 ^ 20 + off / 65536) s.bar2).bind fun p =>
    let pa := p * 65536 + off % 65536
    if off < 2 ^ 36 && pa < 2 ^ 40 && partOf s (pa / 2 ^ 38) = fn then some pa else none

/-- What a host reads through BAR2 of a function (R382), at system scope. DESIGN CHOICE (log entry 71): a read of a page without a translation, or of poison
(R367), gives nothing. -/
def bar2Read (s : State) (fn off n : Nat) : Option (List Byte) :=
  (List.range n).mapM fun i => (bar2Addr s fn (off + i)).bind fun pa => if isPoisoned s pa then none else some (memByte s.mem pa)

/-- Bytes that arrive for an offset of BAR2, within one page. -/
def bar2Put (s : State) (fn off : Nat) (bs : List Byte) : State :=
  match bar2Addr s fn off with
  | some pa => if bs.isEmpty then s else systemWrite s (systemUnit 0 26) pa bs
  | none => s

/-- The physical functions of the endpoint: one for each partition (R382). -/
def functions (s : State) : Nat := if s.sys.part = 1 then 2 else if s.sys.part = 2 then 4 else 1

/-- R382: a host write of up to 512 bytes through BAR2 of a function, in the order of arrival, at system scope; or, with no bytes, system software sets the
translation of a page. DESIGN CHOICE (log entry 55): an address at or above 192 GiB of a die is written as though memory stood there. -/
def execPcieBar2Write (addr len : Nat) (w : BitVec 4096) (s : State) : Out :=
  let fn := addr / 2 ^ 36
  let off := addr % 2 ^ 36
  .next (
    if functions s ≤ fn then s
    else if len = 0 then { s with bar2 := mapSet (fn * 2 ^ 20 + off / 65536) (w.toNat % 2 ^ 24) s.bar2 }
    else
      let bs := natBytes w.toNat (min len 512)
      let m := 65536 - off % 65536
      bar2Put (bar2Put s fn off (bs.take m)) fn (off + m) (bs.drop m))

/-- The `done` that system software executes for a discarded child, on the join counter at a physical address of cluster memory, which sets ERROR (R28, R349).
While the continuation queue is full the last one waits (R199). -/
def systemDone (s : State) (unit addr : Nat) : State :=
  let k := (addr - 2 ^ 40) / 2 ^ 23
  match doneUpdate s ⟨k * 8, k, 16, unit, 0⟩ addr (BitVec.ofNat 64 (0x000FFFFFFF000000 + (addr - 2 ^ 40) % 2 ^ 23)) true Rel.none with
  | some (some t) => t
  | some none => { s with dones := s.dones ++ [(unit, addr)] }
  | none => s
/-- The waiting ones are tried again, in their order. -/
def retryDones (s : State) : State := s.dones.foldl (fun s x => systemDone s x.1 x.2) { s with dones := [] }

/-- The Tsuiq port that a system writer is (R115). -/
def portOf (unit : Nat) : Option Nat := if 20 ≤ unit % 32 ∧ unit % 32 ≤ 25 then some (6 * (unit / 2 ^ 14) + unit % 32 - 20) else none

/-- R115: a system writer writes device memory, at most 64 bytes in one access; so does another package's Tsuiq port, whose completion record is one write
of 16 bytes (R381), unless stage 3 has disabled the port (R383). With no bytes it stands for a `done` of system software. DESIGN CHOICE (log entry 55): an offset at or above 192 GiB is written as though
memory stood there. -/
def execSystemWriterWrite (unit addr len : Nat) (w : BitVec 512) (s : State) : Out :=
  .next (if (portOf unit).any s.sys.portsOff.contains then s else if len = 0 then systemDone s unit addr else systemWrite s unit (addr % 2 ^ 40) (natBytes w.toNat (min len 64)))

end Sys2Proof.Machine
end

