-- ==== Sys2Proof/Machine/Signature.lean ====
section
/-! DEFINITION. The digest and the signature of an image (R384): SHAKE256 as FIPS 202 defines it, and the verification of SLH-DSA with the
parameter set SLH-DSA-SHAKE-256s as FIPS 205 defines it. PRESUMED (log entry 14): the two standards are not part of the manual. -/
namespace Sys2Proof.Machine

/-! ### SHAKE256 (FIPS 202) -/

/-- The lane of a Keccak state at column x and row y. -/
def lane64 (a : List W64) (x y : Nat) : W64 := a.getD (x % 5 + 5 * (y % 5)) 0

/-- The step maps theta, rho with pi, and chi. -/
def keccakTheta (a : List W64) : List W64 :=
  let c := (List.range 5).map fun x => (List.range 5).foldl (fun v y => v ^^^ lane64 a x y) 0
  let d := (List.range 5).map fun x => c.getD ((x + 4) % 5) 0 ^^^ (c.getD ((x + 1) % 5) 0).rotateLeft 1
  a.zipIdx.map fun e => e.1 ^^^ d.getD (e.2 % 5) 0
/-- The rotation of each lane, lane (0, 0) first. -/
def keccakOffsets : List Nat :=
  [0, 1, 62, 28, 27, 36, 44, 6, 55, 20, 3, 10, 43, 25, 39, 41, 45, 15, 21, 8, 18, 2, 61, 56, 14]
def keccakRhoPi (a : List W64) : List W64 :=
  let r := (a.zip keccakOffsets).map fun e => e.1.rotateLeft e.2
  (List.range 25).map fun i => lane64 r (i % 5 + 3 * (i / 5)) (i % 5)
def keccakChi (a : List W64) : List W64 :=
  (List.range 25).map fun i => lane64 a i (i / 5) ^^^ (~~~(lane64 a (i + 1) (i / 5)) &&& lane64 a (i + 2) (i / 5))

/-- The constants of the 24 rounds. -/
def keccakConstants : List W64 :=
  [0x0000000000000001, 0x0000000000008082, 0x800000000000808A, 0x8000000080008000, 0x000000000000808B, 0x0000000080000001,
   0x8000000080008081, 0x8000000000008009, 0x000000000000008A, 0x0000000000000088, 0x0000000080008009, 0x000000008000000A] ++
  [0x000000008000808B, 0x800000000000008B, 0x8000000000008089, 0x8000000000008003, 0x8000000000008002, 0x8000000000000080,
   0x000000000000800A, 0x800000008000000A, 0x8000000080008081, 0x8000000000008080, 0x0000000080000001, 0x8000000080008008]
/-- A round, with its constant. -/
def keccakRound (a : List W64) (rc : W64) : List W64 :=
  match keccakChi (keccakRhoPi (keccakTheta a)) with
  | [] => []
  | x :: r => (x ^^^ rc) :: r
/-- Keccak-f[1600]. -/
def keccak (a : List W64) : List W64 := keccakConstants.foldl keccakRound a

/-- Eight bytes as a lane, and a lane's bytes: the first byte is the lowest. -/
def stateLane (b : List Byte) : W64 := BitVec.ofNat 64 (b.foldr (fun x v => x.toNat + 256 * v) 0)
def laneBytes (w : W64) : List Byte := (List.range 8).map fun i => (w >>> (8 * i)).setWidth 8

/-- The state after absorbing blocks of 136 bytes. -/
def absorb (a : List W64) (msg : List Byte) : Nat → List W64
  | 0 => a
  | n + 1 =>
    let block := (List.range 17).map fun i => stateLane ((msg.drop (8 * i)).take 8)
    absorb (keccak (a.zipIdx.map fun e => e.1 ^^^ block.getD e.2 0)) (msg.drop 136) n
/-- Blocks of output. -/
def squeeze (a : List W64) : Nat → List Byte
  | 0 => []
  | n + 1 => ((a.take 17).flatMap laneBytes) ++ squeeze (keccak a) n
/-- The first n bytes of SHAKE256 of a message: the suffix 1111 and the padding fill the last block. -/
def shake256 (msg : List Byte) (n : Nat) : List Byte :=
  let room := 136 - msg.length % 136
  let pad : List Byte := if room = 1 then [0x9F] else 0x1F :: (List.replicate (room - 2) 0 ++ [0x80])
  (squeeze (absorb (List.replicate 25 0) (msg ++ pad) (msg.length / 136 + 1)) (n / 136 + 1)).take n

/-! ### SLH-DSA-SHAKE-256s (FIPS 205)

The parameters: n = 32, h = 64, d = 8, h' = 8, a = 14, k = 22, w = 16, m = 47, and 67 chains. -/

/-- A number in n bytes, the first byte highest, and the number of such bytes. -/
def beBytes (v : Nat) : Nat → List Byte
  | 0 => []
  | n + 1 => beBytes (v / 256) n ++ [BitVec.ofNat 8 v]
def beNat (b : List Byte) : Nat := b.foldl (fun v x => 256 * v + x.toNat) 0
/-- The first n digits of b bits of a string of bytes, the highest first. -/
def digits (x : List Byte) (b n : Nat) : List Nat := (List.range n).map fun i => beNat x / 2 ^ (8 * x.length - b * (i + 1)) % 2 ^ b

/-- An address: the layer, the tree, the type and three words. -/
def slhAddr (layer tree type_ a b c : Nat) : List Byte := beBytes layer 4 ++ beBytes tree 12 ++ beBytes type_ 4 ++ beBytes a 4 ++ beBytes b 4 ++ beBytes c 4
/-- The tweaked hash of SHAKE: F, H and T are this function of one, two and several values. -/
def slhHash (seed adrs m : List Byte) : List Byte := shake256 (seed ++ adrs ++ m) 32
/-- Piece i of a string of values of 32 bytes. -/
def slhPiece (s : List Byte) (i : Nat) : List Byte := (s.drop (32 * i)).take 32

/-- The parent of a node with its sibling: the index says which is the left one. -/
def slhParent (seed adrs node sibling : List Byte) (idx : Nat) : List Byte := slhHash seed adrs (if idx % 2 = 0 then node ++ sibling else sibling ++ node)
/-- The root that a node of index idx and its siblings give; `adrs` names the node of a height and an index. -/
def slhRoot (seed : List Byte) (adrs : Nat → Nat → List Byte) (idx height : Nat) (node : List Byte) : List (List Byte) → List Byte
  | [] => node
  | x :: r => slhRoot seed adrs (idx / 2) (height + 1) (slhParent seed (adrs (height + 1) (idx / 2)) node x idx) r

/-- Steps of a chain from position i. -/
def slhChain (seed : List Byte) (adrs : Nat → List Byte) (x : List Byte) (i : Nat) : Nat → List Byte
  | 0 => x
  | n + 1 => slhChain seed adrs (slhHash seed (adrs i) x) (i + 1) n
/-- The digits that the 67 chains sign: those of the message, and those of their checksum. -/
def wotsDigits (m : List Byte) : List Nat :=
  let l := digits m 4 64
  l ++ digits (beBytes (16 * (l.map (15 - ·)).sum) 2) 4 3
/-- The one-time public key that a signature of a message gives. -/
def wotsKey (seed sig m : List Byte) (layer tree pair : Nat) : List Byte :=
  slhHash seed (slhAddr layer tree 1 pair 0 0)
    ((wotsDigits m).zipIdx.flatMap fun e => slhChain seed (fun j => slhAddr layer tree 0 pair e.2 j) (slhPiece sig e.2) e.1 (15 - e.1))
/-- The root of a tree of a layer, from the signature of a message by its leaf: 67 chains and 8 siblings. -/
def xmssRoot (seed sig m : List Byte) (layer tree leaf : Nat) : List Byte :=
  slhRoot seed (fun z i => slhAddr layer tree 2 0 z i) leaf 0 (wotsKey seed sig m layer tree leaf) ((List.range 8).map fun i => slhPiece sig (67 + i))
/-- The root of the hypertree: layer by layer, each tree's root signed by a leaf of the next. -/
def hyperRoot (seed sig m : List Byte) (layer tree leaf : Nat) : Nat → List Byte
  | 0 => m
  | n + 1 => hyperRoot seed (sig.drop (32 * 75)) (xmssRoot seed sig m layer tree leaf) (layer + 1) (tree / 256) (tree % 256) n

/-- The FORS public key that a signature of the digest gives: 22 trees of height 14. -/
def forsKey (seed sig md : List Byte) (tree pair : Nat) : List Byte :=
  slhHash seed (slhAddr 0 tree 4 pair 0 0)
    ((digits md 14 22).zipIdx.flatMap fun e =>
      let s := sig.drop (32 * 15 * e.2)
      let i := e.2 * 2 ^ 14 + e.1
      let adrs (z j : Nat) : List Byte := slhAddr 0 tree 3 pair z j
      slhRoot seed adrs i 0 (slhHash seed (adrs 0 i) (slhPiece s 0)) ((List.range 14).map fun j => slhPiece s (j + 1)))

/-- Verification of a signature of a message by a public key: the pure form with an empty context (FIPS 205). -/
def slhVerifies (pk msg sig : List Byte) : Bool :=
  let seed := pk.take 32
  let root := (pk.drop 32).take 32
  let digest := shake256 (slhPiece sig 0 ++ seed ++ root ++ [0, 0] ++ msg) 47
  let tree := beNat ((digest.drop 39).take 7)
  let leaf := beNat ((digest.drop 46).take 1)
  let sig := sig.drop 32
  decide (hyperRoot seed (sig.drop (32 * 330)) (forsKey seed sig (digest.take 39) tree leaf) 0 tree leaf 8 = root)

end Sys2Proof.Machine
end

