-- ==== Sys2Proof/Machine/Boot.lean ====
section
/-! DEFINITION. Bring-up and management (R379, R383 to R390), the control-register window (R386), contexts and pools as system
software creates them (R63, R139, R144), and the words that no decoder takes (R163, R171). -/
namespace Sys2Proof.Machine

/-! ### The boot stages (R383 to R385, R390) -/

/-- Limit of a stage in seconds (R383). -/
def stageLimit (stage : Nat) : Nat := match stage with | 1 => 10 | 2 => 40 | 3 => 10 | 4 => 60 | _ => 0
/-- Pulses from a stage's beginning that its limit allows. -/
def stagePulses (stage : Nat) : Nat := stageLimit stage * Config.pulsesPerSecond

/-- A stage begins (R383). -/
def beginStage (s : State) (stage : Nat) : State :=
  logEvent { s with sys := { s.sys with stage := stage, began := s.now } } 0 stage

/-- A stage fails: STAGE 7 with its REASON; a trial is followed once by a boot of the other slot (R383, R385). -/
def bootFail (s : State) (reason die layer : Nat) : State :=
  let y := s.sys
  if y.trying then
    beginStage (logEvent { s with sys := { y with trial := if y.trial = some y.slot then none else y.trial, trying := false, reverted := true, slot := 1 - y.slot } } 1 (1 - y.slot)) 1
  else logEvent { s with sys := { y with stage := 7, reason := reason, bdie := die, layer := layer } } 0 7

/-- R383, R384: power-good starts stage 1. -/
def execPowerGood (s : State) : Out :=
  .next (
    if s.sys.power then s
    else beginStage { s with sys := { s.sys with power := true, powerAt := s.now, reverted := false, trying := false } } 1)

/-- The fields of an image (R384). -/
def Slot.magic (x : Slot) : Nat := x.head.toNat % 2 ^ 32
def Slot.version (x : Slot) : Nat := x.head.toNat / 2 ^ 32 % 2 ^ 32
def Slot.length (x : Slot) : Nat := x.head.toNat / 2 ^ 64 % 2 ^ 32
/-- Bytes 0 to 79 + LENGTH, and the signature behind them (R384). -/
def Slot.message (x : Slot) : List Byte := natBytes x.head.toNat 16 ++ natBytes x.pk.toNat 64 ++ natBytes x.body x.length
def Slot.signature (x : Slot) : List Byte := natBytes (x.body / 256 ^ x.length) 29792
/-- R384: the public key's digest is the fuses' value, and the signature verifies. -/
def Slot.verifies (x : Slot) (pkh : BitVec 256) : Bool :=
  shake256 (natBytes x.pk.toNat 64) 32 = natBytes pkh.toNat 32 && slhVerifies (natBytes x.pk.toNat 64) x.message x.signature

/-- The slots: 0 A, 1 B. -/
def slotOf (y : Sys) (n : Nat) : Slot := if n = 0 then y.slotA else y.slotB
def putSlot (y : Sys) (n : Nat) (x : Slot) : Sys := if n = 0 then { y with slotA := x } else { y with slotB := x }
/-- Whether a slot holds a valid image (R384). DESIGN CHOICE (log entry 14): a header whose reserved bytes are not zero, or whose LENGTH is above 2^28, is none. -/
def slotValid (y : Sys) (n : Nat) : Bool :=
  let x := slotOf y n
  x.magic = 0x47524942 && y.minver ≤ x.version && x.length ≤ 2 ^ 28 && x.head.toNat / 2 ^ 96 = 0 && x.verifies y.pkh
/-- The slot that stage 1 boots: the valid one with the higher version, A in a tie (R384); after a reversion the other one. -/
def bootSlot (y : Sys) : Option Nat :=
  if y.reverted then (if slotValid y y.slot then some y.slot else none)
  else if slotValid y 0 && (!slotValid y 1 || decide (y.slotB.version ≤ y.slotA.version)) then some 0
  else if slotValid y 1 then some 1
  else none

/-- The first byte past die 0's device memory, where the dump region ends (R389). -/
def dumpEnd : Nat := 0x3000000000
/-- Whether the dump header holds its magic (R390). -/
def dumpPresent (s : State) : Bool := memNat s.mem dumpBase 4 = 0x504D5544

/-- Stage 2 writes device memory: zero data and valid check bits, but for a preserved dump (R383, R390). -/
def clearDevice (s : State) (keep : Bool) : State :=
  if keep then
    { s with mem := memClear (memClear s.mem 0 dumpBase) dumpEnd (2 ^ 40 - dumpEnd), poison := mapDelRange (dumpEnd / 16) (2 ^ 40 / 16) (mapDelRange 0 (dumpBase / 16) s.poison) }
  else { s with mem := memClear s.mem 0 (2 ^ 40), poison := mapDelRange 0 (2 ^ 40 / 16) s.poison }

/-- The Tsuiq ports that fail to calibrate are disabled and logged (R383). -/
def badPorts (now : Nat) : List Nat := (List.range 24).filter fun p => !Config.portCalibrates (now * 24 + p)

/-- The die and the layer that a failure of a stage in a pulse names (R383): those that its calibration finds. -/
def failedAt (stage now : Nat) : Nat × Nat :=
  if stage = 2 then (Config.failedDie (now * 2) % 4, Config.failedLayer now % 8) else if stage = 3 then (Config.failedDie (now * 2 + 1) % 4, 0) else (0, 0)

/-- R383 to R385, R390: a stage ends within its limit; the next begins, or the boot fails. -/
def execBootStageDone (s : State) : Out :=
  match s.sys.stage with
  | 1 =>
    match bootSlot s.sys with
    | some n => .next (beginStage { s with sys := { s.sys with slot := n, version := BitVec.ofNat 32 (slotOf s.sys n).version, trying := s.sys.trial = some n && !s.sys.reverted } } 2)
    | none => .next (bootFail s 1 0 0)
  | 2 =>
    if Config.calibrates (s.now * 2) then
      let keep := dumpPresent s
      .next (beginStage { clearDevice s keep with sys := { s.sys with dump := keep } } 3)
    else .next (bootFail s 2 (failedAt 2 s.now).1 (failedAt 2 s.now).2)
  | 3 =>
    if Config.calibrates (s.now * 2 + 1) then .next (beginStage ((badPorts s.now).foldl (fun s p => logEvent { s with sys := { s.sys with portsOff := p :: s.sys.portsOff } } 4 p) s) 4)
    else .next (bootFail s 3 (failedAt 3 s.now).1 0)
  | _ => .refused .notEnabled

/-- R383: a stage has exceeded its limit. -/
def execBootStageTimeout (s : State) : Out :=
  let stage := s.sys.stage
  if stage = 0 || 5 ≤ stage || s.now ≤ s.sys.began + stagePulses stage then .refused .notEnabled
  else .next (bootFail s stage (failedAt stage s.now).1 (failedAt stage s.now).2)

/-- R383, R385: READY is set in stage 4 only; a trial that gets there raises MINVER. -/
def setReady (s : State) (w : W64) : State :=
  if s.sys.stage = 4 && w.getLsbD 0 then
    let y := s.sys
    let y := if y.trying then { y with minver := max y.minver (slotOf y y.slot).version, trial := if y.trial = some y.slot then none else y.trial, trying := false } else y
    beginStage { s with sys := { y with ready := true } } 5
  else s
def execSysReadyWrite (w : BitVec 64) (s : State) : Out := .next (setReady s w)

/-- Whether a slot has been booted in this power-up: an update has a slot to go to (R385). -/
def slotBooted (y : Sys) : Bool := decide (2 ≤ y.stage) && !(decide (y.stage = 7) && decide (y.reason = 1))

/-- R385: the host has written an image into the slot that was not booted: its first 16 bytes, its public key, its payload and signature. An image that fails
verification is erased and logged. DESIGN CHOICE (log entry 14): before stage 1 has chosen a slot, and after it has found none, there is no slot that was not
booted, and the mailbox takes no image. -/
def execUpdateWrite (head pk body : Nat) (s : State) : Out :=
  let y := s.sys
  let n := 1 - y.slot
  let z := putSlot y n { head := BitVec.ofNat 128 head, pk := BitVec.ofNat 512 pk, body := body }
  .next (
    if !slotBooted y then s
    else if slotValid z n then logEvent { s with sys := { z with trial := some n } } 1 (n + 2)
    else logEvent { s with sys := { putSlot y n Slot.erased with trial := if y.trial = some n then none else y.trial } } 1 n)

/-- R383: power-down. What flash, fuses and the memories outside the package hold stays, and so does device memory, where a
dump may stand (R390). -/
def execPowerDown (s : State) : Out :=
  let y := s.sys
  .next
    { State.reset with
        mem := s.mem.filter fun e => e.1 < 2 ^ 40
        poison := s.poison.filter fun e => e.1 < 2 ^ 40 / 16
        remote := s.remote, sent := s.sent, images := s.images, free := s.free
        inputs := s.inputs.map fun e => (e.1 - s.now, e.2)
        sys := { Sys.reset with slotA := y.slotA, slotB := y.slotB, pkh := y.pkh, minver := y.minver, trial := y.trial, log := y.log } }

/-! ### Sensors and the event log (R387, R388) -/

/-- A temperature above 105 degrees, in sixteenths (R387). -/
def isHot (die sensor : Nat) (w : BitVec 32) : Bool :=
  (sensor < 8 || (die = 0 && 16 ≤ sensor && sensor < 20)) && decide (1680 < w.toInt)

/-- The sensors of the package (R387): 16 on each die, and the I/O die's with die 0. -/
def sensorsOf (die : Nat) : List Nat := List.range (if die = 0 then 20 else 16)
/-- Pulses of a millisecond. -/
def samplePulses : Nat := Config.pulsesPerSecond / 1000
/-- Whether the sensors are refreshed as the next pulse begins: every millisecond from power-good on (R387). -/
def sampleDue (s : State) : Bool := s.sys.power && decide (s.sys.powerAt ≤ s.now) && (s.now + 1 - s.sys.powerAt) % samplePulses = 0
/-- Whether a sensor has been refreshed for that pulse. -/
def sampled (s : State) (die sensor : Nat) : Bool := mapGet 0 sensor (s.die die).fresh = s.now + 1

/-- A sensor is refreshed; the tenth reading in a row above the limit is a fatal error (R387). -/
def refreshSensor (s : State) (die sensor : Nat) (w : BitVec 32) : State :=
  let d := s.die die
  let count := (mapGet 0 sensor d.sensors).toNat / 2 ^ 32 + 1
  let hot := if isHot die sensor w then mapGet 0 sensor d.hot + 1 else 0
  let s := s.modDie die fun d => { d with sensors := mapSet sensor (BitVec.ofNat 64 (count % 2 ^ 32 * 2 ^ 32 + w.toNat)) d.sensors, hot := mapSet sensor hot d.hot, fresh := mapSet sensor (s.now + 1) d.fresh }
  if hot = 10 ∧ s.sys.fatal = false then fatalStop (logEvent s 2 (die * 32 + sensor)) die 11 true else s

/-- R387: one reading a millisecond. -/
def execSensorSample (die sensor : Nat) (w : BitVec 32) (s : State) : Out :=
  if sampleDue s && (sensorsOf die).contains sensor && !sampled s die sensor then .next (refreshSensor s die sensor w) else .refused .notEnabled

/-- What every millisecond does by itself: each sensor that no reading has come for takes what it then measures (log entry 49). -/
def sampleSensors (s : State) : State :=
  if sampleDue s then (([0, 1, 2, 3] : List Nat).flatMap fun d => (sensorsOf d).map fun n => (d, n)).foldl (fun s x =>
    if sampled s x.1 x.2 then s else refreshSensor s x.1 x.2 (Config.sensorValue (s.now + 1) x.1 x.2)) s
  else s

/-- R388, R366: once a second the correctable errors of each domain are logged. -/
def execEventLogTick (s : State) : Out :=
  .next (
    { s.clusters.foldl (fun s e => if e.2.corrected = 0 then s else logEvent s 3 (e.1 + 65536 * e.2.corrected)) s with
        clusters := s.clusters.map fun e => (e.1, { e.2 with corrected := 0 }) })

/-! ### Contexts and pools (R63, R82, R139, R144) -/

/-- R63, R82, R236, R240, R245: system software creates a context: its registers, and everything that belongs to it in every core and cluster, is as its
creation sets it; what belongs to other contexts stays, but for the tiles: every element is +0 (log entry 27). The die is that of a command processor or a
pool that names the context already (R380). -/
def execContextCreate (ctx : Nat) (s : State) : Out :=
  .next (
    if !s.sys.ready || (s.ctx ctx).live || 4096 ≤ ctx then s
    else
      { s.setCtx ctx { Ctx.reset with live := true, die := (s.ctx ctx).die } with
          cores := s.cores.map fun e => (e.1, if e.2.ctx = ctx && e.2.mir.st = .idle then e.2.withContext CtxCore.reset else e.2)
          acc := [], accPoison := [] })

/-- The context of a grant, and the address of the heap area in the memory of a die. -/
def grantCtx (g : Nat) : Nat := g % 65536
def grantArea (g d : Nat) : Nat := g / 2 ^ (16 + 52 * d) % 2 ^ 52

/-- R139, R145: a free pool goes to a context with a heap area in each die's memory; this pulse anchors its snapshot periods. -/
def execPoolAllocate (pool grant : Nat) (s : State) : Out :=
  .next (
    if 64 ≤ pool || (s.pool pool).owner.isSome then s
    else (s.modPool pool fun p => { p with owner := some (grantCtx grant), shards := ([0, 1, 2, 3] : List Nat).map fun d => (d, { Shard.reset with area := grantArea grant d }), round := none }).schedule (s.now + 256) (.poolSnapshot pool))

/-- R144. -/
def execPoolFree (pool : Nat) (s : State) : Out :=
  .next (if (s.pool pool).owner.isNone then s else freePool s pool)

/-! ### The control-register window (R386) -/

/-- An access that the window ignores and logs (R386, R388). -/
def windowError (s : State) : State := logEvent s 5 0

/-- A register of a core's region. A strand's own registers are written only while its core is FROZEN or SAVED. -/
def windowCore (s : State) (c n : Nat) (w : W64) : Out :=
  let k := s.core c
  match n with
  | 0x013 | 0x015 | 0x016 =>
    if k.mir.st = .frozen || k.mir.st = .saved then
      match setStrandReg k.su n w with
      | .inr u => .next (s.modS c fun _ => u)
      | .inl _ => .next (windowError s)
    else .next (windowError s)
  | 0x051 => if 8 ≤ w.toNat % 16 then execMirReserved c (w.toNat % 16) s else mirPerform s c (w.toNat % 16) (w.toNat / 2 ^ 16 % 65536)
  | 0x053 | 0x054 =>
    match setMirReg k.mir n w with
    | .inr m => .next (s.modMir c fun _ => m)
    | .inl _ => .next (windowError s)
  | _ => .next s

/-- A register of a pool's region (R141). -/
def windowPool (s : State) (p n : Nat) (w : W64) : State :=
  match setPoolReg (s.pool p) n w with
  | .inr x => s.setPool p x
  | .inl _ => windowError s

/-- A register of a cluster's region (R89, R335). -/
def windowCluster (s : State) (k n : Nat) (w : W64) : State :=
  if 0x080 ≤ n ∧ n < 0x084 then s.modCluster k fun u => { u with ent := mapSet (n - 0x080) w u.ent }
  else if n = 0x084 then portWrite s k w
  else s

/-- A register of a context's region (R321, R356). -/
def windowCtx (s : State) (x n : Nat) (w : W64) : State :=
  if n = 0x010 then s
  else if n = 0x100 then s.modCtx x fun c => { c with ptroot := w &&& 0x000000FFFFFF0000 }
  else
    match setCtxReg (s.ctx x) n w with
    | .inr c => s.setCtx x c
    | .inl _ => windowError s

/-- FQ.PTR (R362): HEAD, and the fields that a write clears. -/
def setFqPtr (s : State) (die : Nat) (w : W64) : State :=
  s.modDie die fun d =>
    { d with head := if w.toNat % 2 ^ 20 < 2 * fqSize d then w.toNat % 2 ^ 20 else d.head
             dropped := if w.toNat / 2 ^ 48 = 0 then 0 else d.dropped, badack := d.badack && !w.getLsbD 47 }
/-- FQ.BASE (R362): SIZE above 12 is outside its range. TAIL and HEAD stand modulo twice the queue's size. -/
def setFqBase (s : State) (die : Nat) (w : W64) : State :=
  if 12 < w.toNat % 16 then windowError s
  else s.modDie die fun d =>
    let d := { d with fqBase := w &&& 0x000000FFFFFFF00F }
    { d with tail := d.tail % (2 * fqSize d), head := d.head % (2 * fqSize d) }

/-- The context register of a command processor (R337): the context that it names belongs to its partition (R380). -/
def setCpCtx (s : State) (die : Nat) (w : W64) : State :=
  (s.modCp die fun p => { p with ctx := w.toNat % 65536 }).modCtx (w.toNat % 65536) fun x => { x with die := die }

/-- A register of a die's region, written from a view of the window. Swallow counts are written only by management (R386). -/
def windowDie (s : State) (view d off : Nat) (w : W64) : State :=
  match off with
  | 0x000 => setFqBase s d w
  | 0x008 => setFqPtr s d w
  | 0x010 =>
    match w.toNat / 2 ^ 32 % 4 with
    | 0 => ackGo s d (w.toNat % 2 ^ 32) false
    | 1 => ackGo s d (w.toNat % 2 ^ 32) true
    | 2 => ackKill s d (w.toNat % 2 ^ 32)
    | _ => s
  | 0x020 => trInv s w
  | 0x040 => startStream s d w
  | 0x048 => s.modCp d fun p => { p with status := w &&& 0xFFFFFFFFFFFFFFF8 }
  | 0x050 => s.modCp d fun p => { p with tagTab := w &&& 0xFFFFFFFFFFFFFFF8 }
  | 0x058 => setCpCtx s d w
  | 0x060 => setDlv s d w
  | 0x068 => resumeContext s d (w.toNat % 65536)
  | _ =>
    if 0x100 ≤ off ∧ off < 0x240 ∧ view = 5 then
      if 48 < w.toNat % 64 then windowError s else s.modCluster (d * 40 + (off - 0x100) / 8) fun u => { u with swallowNext := w.toNat % 64 }
    else s

/-- A register of the system region: READY is the general cores' to write, PART management's (R379, R383). -/
def windowSys (s : State) (view off : Nat) (w : W64) : State :=
  if off = 8 then (if view = 0 then setReady s w else s) else if off = 16 then (if view = 5 then setPart s w else s) else s

/-! An access of the window is offset + 2^26 * view + 2^29 * kind (log entry 35). -/

/-- The parts of an access: its offset, who makes it, and of what kind it is. -/
def accOffset (x : Nat) : Nat := x % 2 ^ 26
def accView (x : Nat) : Nat := x / 2 ^ 26 % 8
def accKind (x : Nat) : Nat := x / 2 ^ 29

/-- Whether a view reaches what stands on a die: through BAR0 of a partition only what is the partition's (R386). -/
def viewHas (s : State) (view die : Nat) : Bool := view = 0 || view = 5 || partOf s die + 1 = view

/-- The number of a register within its 4 KiB. -/
def accNumber (off : Nat) : Nat := off % 4096 / 8
/-- R386: whether a view finds a register at an 8-byte aligned offset. DESIGN CHOICE (log entry 35): a core's region holds the numbers that are a core's or a strand's
own, and a context counts as its command processor's partition's, or the first one's before any has named it. -/
def accAssigned (s : State) (view off : Nat) : Bool :=
  let n := accNumber off
  if off < 0x500000 then
    viewHas s view (off / 4096 / 320) && [0x000, 0x001, 0x002, 0x010, 0x013, 0x015, 0x016, 0x020, 0x050, 0x051, 0x052, 0x053, 0x054].contains n
  else if 0x800000 ≤ off ∧ off < 0x840000 then (view = 0 || view = 5 || poolPart s ((off - 0x800000) / 4096) + 1 = view) && [0x040, 0x041, 0x042].contains n
  else if 0xC00000 ≤ off ∧ off < 0xCA0000 then
    viewHas s view ((off - 0xC00000) / 4096 / 40) && ((0x030 ≤ n && n < 0x040) || (0x080 ≤ n && n ≤ 0x085))
  else if 0x1000000 ≤ off ∧ off < 0x2000000 then
    viewHas s view (s.ctx ((off - 0x1000000) / 4096)).die && [0x010, 0x011, 0x012, 0x014, 0x017, 0x018, 0x019, 0x01A, 0x100].contains n
  else if 0x2000000 ≤ off ∧ off < 0x2400000 then
    let o := off % 2 ^ 20
    viewHas s view ((off - 0x2000000) / 2 ^ 20) &&
      ([0x000, 0x008, 0x010, 0x020, 0x028, 0x040, 0x048, 0x050, 0x058, 0x060, 0x068].contains o || (0x100 ≤ o && o < 0x240) ||
        (0x400 ≤ o && o < 0x400 + 8 * (sensorsOf ((off - 0x2000000) / 2 ^ 20)).length))
  else if 0x3000000 ≤ off ∧ off < 0x3001000 then (view ≤ functions s || view = 5) && [0, 8, 16].contains (off - 0x3000000)
  else false

/-- A write of 8 bytes to an assigned offset. -/
def windowWrite (s : State) (view off : Nat) (w : W64) : Out :=
  let n := accNumber off
  if off < 0x500000 then windowCore s (off / 4096) n w
  else if off < 0x840000 then .next (windowPool s ((off - 0x800000) / 4096) n w)
  else if off < 0xCA0000 then .next (windowCluster s ((off - 0xC00000) / 4096) n w)
  else if off < 0x2000000 then .next (windowCtx s ((off - 0x1000000) / 4096) n w)
  else if off < 0x2400000 then .next (windowDie s view ((off - 0x2000000) / 2 ^ 20) (off % 2 ^ 20) w)
  else .next (windowSys s view (off - 0x3000000) w)

/-- R386: an access through the window; a read changes nothing. One of another size, or of an offset that is not assigned, is ignored and logged. Until stage 4
begins nothing but SYS.BOOT answers (R383). -/
def execWindowRegisterWrite (acc : Nat) (w : BitVec 64) (s : State) : Out :=
  let off := accOffset acc
  if !windowOpen s.sys then .next s
  else if 2 ≤ accKind acc || off % 8 ≠ 0 || !accAssigned s (accView acc) off then .next (windowError s)
  else if accKind acc = 1 then .next s
  else windowWrite s (accView acc) off w

/-- SYS.BOOT (R383). -/
def bootWord (y : Sys) : Nat :=
  y.version.toNat * 2 ^ 32 + y.reason * 2 ^ 24 + y.bdie * 2 ^ 20 + y.layer * 2 ^ 16 + y.slot * 16 + (if y.dump then 8 else 0) + y.stage

/-- What a read of some bytes from a view gives (R386): zero where no register answers, or where the read is not of 8 bytes. -/
def windowRead (s : State) (view bytes off : Nat) : Nat :=
  let n := accNumber off
  if bytes ≠ 8 then 0
  else if off = 0x3000000 then bootWord s.sys
  else if !windowOpen s.sys || off % 8 ≠ 0 || !accAssigned s view off then 0
  else if off < 0x500000 then coreReg s (off / 4096) n
  else if off < 0x840000 then poolReg (s.pool ((off - 0x800000) / 4096)) n
  else if off < 0xCA0000 then
    let u := s.cluster ((off - 0xC00000) / 4096)
    if n < 0x040 then wmWord (u.chan (n - 0x030)) else if n = 0x085 then portStatus u else 0
  else if off < 0x2000000 then
    let x := s.ctx ((off - 0x1000000) / 4096)
    if n = 0x100 then x.ptroot.toNat else if n = 0x010 then (off - 0x1000000) / 4096 else ctxReg x false 0 n
  else if off < 0x2400000 then
    let d := s.die ((off - 0x2000000) / 2 ^ 20)
    let o := off % 2 ^ 20
    match o with
    | 0x000 => d.fqBase.toNat
    | 0x008 => fqPtr d
    | 0x010 | 0x020 | 0x068 => 0
    | 0x028 => if s.trBusy.isSome then 1 else 0
    | 0x040 => d.cp.start.toNat
    | 0x048 => d.cp.status.toNat
    | 0x050 => d.cp.tagTab.toNat
    | 0x058 => d.cp.ctx
    | 0x060 => d.dlv.toNat
    | _ => if o < 0x400 then (s.cluster ((off - 0x2000000) / 2 ^ 20 * 40 + (o - 0x100) / 8)).swallowNext else (mapGet 0 ((o - 0x400) / 8) d.sensors).toNat
  else if off = 0x3000008 then (if s.sys.ready then 1 else 0)
  else s.sys.part

/-! ### Words that are no instruction (R163, R171) -/

/-- The cause with which a scalar word fails decoding (R163), none for an instruction. -/
def wordCause (s : State) (c : Nat) (w : BitVec 32) : Option Nat :=
  if !majorAssigned (fMajor w).toNat then some 0x01
  else
    match decodeScalar w with
    | none => some 0x02
    | some (.getcr _ _ a i) => crDecode s c i.toNat a false
    | some (.setcr _ _ a i) => crDecode s c i.toNat a true
    | some _ => none

/-- R163: the word at the pc fails decoding; its trap is taken whatever its guard holds. -/
def execScalarWordNotInstruction (w : BitVec 32) (s : State) : Out :=
  let c := s.cur.1
  match wordCause s c w with
  | none => .refused .notEnabled
  | some cause => .next (trapS (s.modS c fun u => { u with word := w }) c cause 0 none)

/-- What refuses the entry at the head, whose first word is given, before its tokens are looked at: a word that holds poison (R367), and
checks 1 and 2 of R171. -/
def entryCause (s : State) (c e : Nat) (w : W64) : Option Nat :=
  if ringPoisoned s c e (headSkip (s.core c) e) 1 || ringPoisoned s c e (headSkip (s.core c) e) (1 + wordExts e w) then some 0x54
  else if cWait w = 0xFF#8 || (List.range (wordExts e w)).any fun i => cWait (ringWord s c e (headSkip (s.core c) e + i + 1)) ≠ 0xFF#8 then some 0x07
  else if (extCount (engineMap e) (cOp w).toNat).isNone then some 0x06
  else none

/-- R171: the entry at the head of the engine whose turn it is fails check 1 or 2, and its tokens are not awaited. -/
def execEngineWordNotCommand (w : BitVec 64) (s : State) : Out :=
  let c := s.cur.1
  let e := s.cur.2
  match entryCause s c e w with
  | none => .refused .notEnabled
  | some cause => .next (trapEngine (s.modEng c e fun g => { g with word := w }) c e cause none)

end Sys2Proof.Machine
end

