-- ==== Sys2Proof/Machine/Clock.lean ====
section
/-! DEFINITION. One nominal pulse: which domains run in it, what their units and those outside every domain do by themselves,
and the agenda of turns that follow (R5, R26, R336, R350, R351, R366, R371; log entries 3 and 10). -/
namespace Sys2Proof.Machine

/-! ### Which domains run (R350, R366, R371) -/

/-- The swallow count of the window that holds the pulse: a change takes effect with the window (R350). -/
def swallowNow (s : State) (k : Nat) : Nat := if s.now % 64 = 0 then (s.cluster k).swallowNext else (s.cluster k).swallow
/-- Whether throttling gives a cluster's domain this pulse (R350). -/
def pulseGiven (s : State) (k : Nat) : Bool := !swallowed (swallowNow s k) (s.now % 64) && !dieStopped s (dieOfCluster k)
/-- Whether a cluster's domain receives this pulse. -/
def domainRuns (s : State) (k : Nat) : Bool := (s.cluster k).freeze = 0 && pulseGiven s k
/-- The clusters that hold anything. -/
def activeClusters (s : State) : List Nat := (mapKeys s.clusters ++ (mapKeys s.cores).map clusterOf).eraseDups

/-- A pulse that an error freeze takes from what throttling would give (R366). The last one is a step of its own. -/
def freezePulse (s : State) (k : Nat) : State :=
  if 1 < (s.cluster k).freeze && pulseGiven s k then s.modCluster k fun u => { u with freeze := u.freeze - 1 } else s

/-! ### What a domain cycle begins with -/

/-- The saved scalar writes of a resumed strand land (R174, R329). -/
def landPend (s : State) (c : Nat) : State :=
  if (s.core c).su.pend.isEmpty then s
  else s.modCore c fun k =>
    { k with su := { (k.su.pend.filter fun p => p.due ≤ k.cy).foldl (fun u p => u.land p.reg p.value) k.su with pend := k.su.pend.filter fun p => k.cy < p.due } }

/-- One cycle of a running core. -/
def coreCycle (s : State) (c : Nat) : State :=
  if (s.core c).mir.st = .running then watchCycle (landPend (s.modCore c fun k => { k with cy := k.cy + 1 }) c) c else s

/-- One cycle of a domain: its cores' clocks, the bank ports, the copy port and the front end. -/
def domainCycle (s : State) (k : Nat) : State :=
  let s := s.modCluster k fun u => { u with dcy := u.dcy + 1, timed := u.timed.filter fun x => u.dcy < x.due, mbanks := [], cbanks := [] }
  let s := (clusterCores k).foldl coreCycle s
  frontEndCheck (portRetry s k) k

/-! ### The turns of a domain -/

/-- Turns of what a core's units hold back and of V's results: the push of an older entry comes before a younger landing (R18, R23, R24, R182,
R214, R246). -/
def landingTurns (s : State) (c : Nat) : List Turn :=
  let k := s.core c
  (k.eng.flatMap fun e => e.2.held.map fun h => .event (.tokenPush c e.1 h.dest)) ++
  (if k.v.push.isEmpty then [] else [.event (.inboxPush c)]) ++
  (if k.v.landings.any k.lands then [.event (.resultLanding c)] else []) ++
  (k.v.cdf.filterMap fun e => match e.2.switch with
    | some d => if d ≤ k.cy then some (.event (.cdfBankSwitch c e.1)) else none
    | none => none) ++
  (match k.su.wait with
   | .park _ d => if d ≤ k.cy then [.event (.parkTimeout c)] else []
   | _ => [])

/-- Turns of the access entries under way: a bank that becomes FULL in this cycle serves an `lcbx` of this cycle (R307). -/
def accessTurns (s : State) (c : Nat) : List Turn :=
  let run := (s.core c).run
  (run.filterMap fun e => match e.2.ins with
    | .lcbtab w _ => some (.event (.xtBankFull c (argF w 39 36)))
    | _ => none) ++
  run.filterMap fun e => match e.2.ins with
    | .lcbtab _ _ => none
    | _ => some (if e.1 = 3 then .event (.sqElementPop c) else .event (.dqElementPush c e.1))

/-- A W entry that issues in this cycle may pop its first element in it (R262). -/
def firstPopTurns (s : State) (c : Nat) : List Turn :=
  if ((s.core c).runOf 3).isNone && ((s.core c).engine 3).ring.forked then [.event (.sqElementPop c)] else []

/-- Turns of a core's commands in the arrays. -/
def matrixTurns (s : State) (c : Nat) : List Turn :=
  let k := s.core c
  if k.m.cmds.isEmpty && k.m.granted.isNone && k.m.leasing.isNone && !(k.m.held && decide (8192 ≤ k.cy - k.m.grant)) then []
  else
    (if k.m.cmds.any fun x => x.writeDue k.cy && !x.late then [.event (.mmulBlockWrite c)] else []) ++
    (if k.m.cmds.any fun x => x.writeDue k.cy && x.late then [.event (.operandFetchArrival c)] else []) ++
    (if k.m.cmds.any fun x => x.op.kind = 0 then [.event (.mmulDrainStart c)] else []) ++
    (if k.m.cmds.any fun x => x.op.kind = 1 && decide (x.b.rows ≤ x.krow) then [.event (.mdrainComplete c)] else []) ++ [.unit c 7]

/-- A core whose M may have a row to drain or to clear in this cycle. -/
def rowCores (s : State) (k : Nat) : List Nat :=
  ((clusterCores k).filter fun c => (s.core c).mir.st = .running).filter fun c => !(s.core c).m.cmds.isEmpty || ((s.core c).engine 5).ring.forked

/-- The turn in which a channel starts an entry or lands bytes: before what S reads in the cycle (R76). -/
def channelTurn (s : State) (k ch : Nat) : List Turn :=
  let x := (s.cluster k).chan ch
  match x.queue with
  | [] => []
  | e :: _ =>
    if x.stop ≠ .run then []
    else if !x.running then [.event (.copyChannelStart k ch)]
    else match cKind e.ins with
      | some (.stream _ _ len _ _) => if x.done < len || !x.fp.isEmpty then [.event (.copyBytesLand k ch)] else []
      | _ => []

/-- The turn in which a channel writes a row of a tile: behind the ports that M takes, before what it drains (R278, R292). -/
def channelRow (s : State) (k ch : Nat) : List Turn :=
  let x := (s.cluster k).chan ch
  match x.queue with
  | [] => []
  | e :: _ =>
    match cKind e.ins with
    | some (.rows _ _ _ _ _ _ _ _ _ _ _) => if x.stop = .run then [.event (.accRowWrite k ch)] else []
    | _ => []

/-- The turn of a channel's barrier operations and completions: after those of all cores (R79). -/
def channelEnd (s : State) (k ch : Nat) : List Turn :=
  let x := (s.cluster k).chan ch
  if x.queue.isEmpty || x.stop ≠ .run then [] else [.event (.copyComplete k ch)]

/-- The turn of S. A pool result lets S issue in its cycle (R155). -/
def scalarTurn (s : State) (c : Nat) : List Turn :=
  match (s.core c).su.wait with
  | .idle | .stalled | .passed | .pool _ _ _ _ => [.unit c 0]
  | _ => []

/-- The engines of a core that can look at an entry. -/
def engineTurns (s : State) (c : Nat) : List Turn :=
  (s.core c).eng.filterMap fun e => if e.2.ring.forked && e.2.stop = .run then some (.unit c e.1) else none

/-- Lines that arrive, before S looks for its word (R131). -/
def arrivalTurns (s : State) (k : Nat) : List Turn :=
  ((s.cluster k).fetches.filter fun f => f.due ≤ (s.cluster k).dcy && f.far ≤ s.now).map fun f => .event (.fetchLineArrival k f.party)

/-- The front end's turns and the fetch port's: what resolves first, then the port, which takes the requests of this cycle
(R127), then the multicast. -/
def frontTurns (s : State) (k : Nat) : List Turn :=
  let u := s.cluster k
  (if u.fe.joining.isSome || u.fe.voting.isSome then [.event (.voteResolve k)] else []) ++
  (match u.fe.joining with
   | some (_, some d) => if d ≤ u.dcy then [.event (.joinTimeout k)] else []
   | _ => []) ++
  (if (rosterOf s k).isEmpty then [] else
    [.unit (8 * k) 8, .event (.frontEndMulticast k), .event (.frontEndRestart k)])

/-- The running cores of a cluster. -/
def runningCores (s : State) (k : Nat) : List Nat := (clusterCores k).filter fun c => (s.core c).mir.st = .running

/-- The turns of one domain in a cycle up to those of S (log entry 3): results and accesses that perform, then lines that arrive. -/
def earlyTurns (s : State) (k : Nat) : List Turn :=
  let run := runningCores s k
  let frozen := (clusterCores k).filter fun c => (s.core c).mir.st = .frozen
  let u := s.cluster k
  run.flatMap (landingTurns s) ++ run.flatMap (accessTurns s) ++
  (frozen.filterMap fun c => if ((s.core c).runOf 3).any fun r => !r.pend.isEmpty then some (.event (.sqElementPop c)) else none) ++
  (((clusterCores k).filter fun c => (s.core c).m.stores.any (rowStores s c)).map fun c => .unit c 11) ++ run.flatMap (matrixTurns s) ++
  (u.chans.flatMap fun e => channelTurn s k e.1) ++
  (if u.phases.any fun p => p.due ≤ u.dcy then [.event (.networkCompletionToken k)] else []) ++
  ((u.timed.filter fun x => x.due ≤ u.dcy).map fun x => .event x.ins) ++
  arrivalTurns s k

/-- The turns of one domain after those of S: the engines, the rows of the tiles, the channels' barrier operations and completions, the arbiter, the
front end, the watchdogs. -/
def lateTurns (s : State) (k : Nat) : List Turn :=
  let run := runningCores s k
  run.flatMap (engineTurns s) ++ run.flatMap (firstPopTurns s) ++ ((rowCores s k).map fun c => .unit c 9) ++
  ((s.cluster k).chans.flatMap fun e => channelRow s k e.1) ++ ((rowCores s k).map fun c => .unit c 10) ++ ((s.cluster k).chans.flatMap fun e => channelEnd s k e.1) ++
  (if run.any fun c => (s.core c).m.request || ((s.core c).engine 5).ring.forked then [.event (.leaseGrant k)] else []) ++ frontTurns s k ++
  (run.filterMap fun c => if (s.core c).wd.started && decide (intervalOf s c ≤ (s.core c).wd.pos) then some (.event (.watchdogIntervalEnd c)) else none)

/-- The turns of the domains that run in a pulse. S of every core has its turn before any engine checks a handle, so that a check
beside an `hfree` in one pulse sees the freed slot (R88). -/
def domainTurns (s : State) (ks : List Nat) : List Turn :=
  ks.flatMap (earlyTurns s) ++ (ks.flatMap fun k => (runningCores s k).flatMap (scalarTurn s)) ++ ks.flatMap (lateTurns s)

/-! ### Outside the domains (R351) -/

/-- The cluster whose next cycle a step must wait for, when it is addressed to one (R351). -/
def stepDomain (s : State) (i : Instr) : Option Nat :=
  match i with
  | .messageArrival id => (mapFind id s.flights).bind fun f => match f with
    | .msg c _ => some (clusterOf c)
    | _ => none
  | .poolResultReturn id => (mapFind id s.flights).bind fun f => match f with
    | .result c _ _ _ _ => some (clusterOf c)
    | _ => none
  | .translationWalkDone id => ((s.walks.find? fun w => w.id = id).map (·.cluster)).filter (· < 160)
  | .strandStart c => some (clusterOf c)
  | _ => none

/-- The partition of a unit outside the domains to which a step belongs (R371): a pool's, or that of a die's command processor. -/
def flightPart (s : State) (f : Flight) : Option Nat :=
  match f with
  | .tag d _ => some (partOf s d)
  | f => (poolFlight f).map fun x => poolPart s x.1
def stepPart (s : State) (i : Instr) : Option Nat :=
  match i with
  | .poolSnapshot p | .putStopArrival p _ | .takePromotion p _ => some (poolPart s p)
  | .poolPutArrival id | .insertCounted id | .snapshotArrival id | .takeArrival id | .takeForwardArrival id | .poolResultReturn id | .forcedRoundServe id |
    .migrationTransfer id | .tagStateArrival id => (mapFind id s.flights).bind (flightPart s)
  | .translationWalkDone id => (s.walks.find? fun w => w.id = id).map fun w => partOf s w.die
  | _ => none

/-- The scheduled steps that are due: those that happen in this pulse, and those that wait at a domain's boundary. -/
def dueSteps (s : State) (ran : Nat → Bool) : List Turn × List Sched :=
  let due := s.evq.takeWhile fun x => x.due ≤ s.now
  let rest := s.evq.drop due.length
  let go (x : Sched) : Bool := (stepDomain s x.ins).all ran && (stepPart s x.ins).all fun p => !s.sys.fatalParts.contains p
  ((due.filter go).map fun x => .event x.ins, (due.filter fun x => !go x).map (fun x => { x with due := s.now + 1 }) ++ rest)

/-- The turns of the units of a die outside the domains. -/
def dieTurns (s : State) (d : Nat) : List Turn :=
  if dieStopped s d then []
  else
    (if (s.die d).queue.isEmpty then [] else [.event (.faultRecordWrite d)]) ++
    (if dlvEnabled s d && !(s.die d).dlvHeld then [.event (.deliveryTurn d)] else [])

/-- The turns of a pool's units. -/
def poolTurns (s : State) (p : Nat × Pool) : List Turn := p.2.shards.filterMap fun e => if (nextTake s.now e.2).isSome && e.2.refused.isNone && !dieStopped s e.1 then some (.event (.takeDecide p.1 e.1)) else none

/-- The remaining turns of a pulse. -/
def packageTurns (s : State) : List Turn :=
  (s.cores.filterMap fun e => if e.2.mir.saving.isSome && e.2.mir.st = .frozen && !dieStopped s (dieOf e.1) then some (.event (.saveWrite e.1)) else none) ++
  (([0, 1, 2, 3] : List Nat).flatMap (dieTurns s)) ++ (s.pools.flatMap (poolTurns s)) ++
  ((xferDue s ++ retiresDue s).map .event) ++
  (if trReady s then [.event .trInvComplete] else []) ++
  (s.ports.filterMap fun p => if p.2.due ≤ s.now && !dieStopped s (p.1 / 6) then some (.event (.tsuiqCopyComplete p.1)) else none) ++
  (if 1 ≤ s.sys.stage && s.sys.stage ≤ 4 && decide (s.sys.began + stagePulses s.sys.stage < s.now) then [.event .bootStageTimeout] else []) ++
  (if s.sys.power && s.now % Config.pulsesPerSecond = 0 then [.event .eventLogTick] else [])

/-! ### A pulse -/

/-- The commands that strands have written to MIR.CTL take effect at the cycle boundary (R325). -/
def postedCommands (s : State) : State :=
  (s.cores.filter fun e => !dieStopped s (dieOf e.1)).foldl (fun s e =>
    e.2.mir.posted.foldl (fun s x =>
      match mirPerform (s.modMir e.1 fun m => { m with posted := m.posted.drop 1 }) e.1 x.1 x.2 with
      | .next t => t
      | _ => s) s) s

/-- The contexts whose watchdog has fired are pre-empted at the cycle boundary (R354). -/
def preemptions (s : State) : State :=
  s.ctxs.foldl (fun s e => if e.2.preempting && !dieStopped s e.2.die then preempt (s.modCtx e.1 fun x => { x with preempting := false }) e.1 else s) s

/-- The steps that belong to a window's or an error freeze's end (R350, R366). -/
def pulseSteps (s : State) : List Turn :=
  (s.clusters.filterMap fun e => if s.now % 64 = 0 && e.2.swallow ≠ e.2.swallowNext then some (.event (.throttleWindow e.1)) else none) ++
  (s.clusters.filterMap fun e => if e.2.freeze = 1 && pulseGiven s e.1 then some (.event (.errorFreezeEnd e.1)) else none)

/-- The waiting entries whose level falls now (R347): before the controllers scan. -/
def aged (s : State) : State :=
  (ageingDue s).foldl (fun s q => match execPriorityAgeing q s with
    | .next t => t
    | _ => s) s

/-- One nominal pulse (R336): its agenda, after what the units do by themselves. The sensors come before it, and no pulse follows a fatal error of the package
(R371, R387). -/
def pulse (s : State) : State :=
  let s := sampleSensors s
  if s.sys.fatal then s else
  let s := retryDones (postedCommands (preemptions { s with now := s.now + 1 }))
  let ks := activeClusters s
  let ran := ks.filter (domainRuns s)
  let first := pulseSteps s
  let s := (ks.filter fun k => !ran.contains k).foldl freezePulse s
  let s := ran.foldl domainCycle s
  let due := dueSteps s fun k => domainRuns s k
  let s := { s with evq := due.2, agenda := first ++ due.1 ++ domainTurns s ran }
  let s := issueTurn (aged (([0, 1, 2, 3] : List Nat).foldl (fun s d => if dieStopped s d then s else cpTurn s d) s))
  { s with agenda := s.agenda ++ packageTurns s }

/-- The fatal errors of the pulse that has ended stop their partitions (R371). -/
def fatalErrors (s : State) : State := s.sys.dying.foldl (fun s e => fatalStop s e.1 e.2 false) { s with sys := { s.sys with dying := [] } }

/-- What happens when the agenda is empty: the fatal errors met in the pulse, then the inputs that arrive at this cycle boundary, else the next pulse. After a fatal
error of the package no pulse comes, and only an input can follow (R371). -/
def tick (s : State) : Option State :=
  let s := fatalErrors s
  let next := s.inputs.filter fun x => x.1 ≤ s.now + 1
  if !next.isEmpty then some { s with inputs := s.inputs.filter (fun x => s.now + 1 < x.1), agenda := next.map fun x => .event x.2 }
  else if s.sys.fatal then
    match s.inputs with
    | [] => none
    | x :: r => some { s with now := x.1, inputs := r, agenda := [.event x.2] }
  else some (pulse s)

end Sys2Proof.Machine
end

