-- ==== Sys2Proof/Machine/Turn.lean ====
section
/-! DEFINITION. What a unit does in its turn: whether it can issue, and the instruction or command it then executes (R14, R16,
R126, R163, R166, R171, R208). -/
namespace Sys2Proof.Machine

/-- What a unit's turn comes to: a state, or an instruction to be executed in a state. -/
inductive Issue where
  | done (s : State)
  | run (i : Instr) (s : State)

/-! ### S -/

/-- Whether a word's D, A and B fields, and its predicate fields, name what it reads (R157, R175 to R203). -/
def readsD (w : BitVec 32) : Bool :=
  let m := (fMajor w).toNat
  let fn := (fFn w).toNat
  m = 11 || (72 ≤ m && m ≤ 83) || m = 86 || m = 87 || ((m = 88 || m = 89) && fn % 8 = 7) || (m = 98 && (fn = 6 || fn = 7)) || (m = 99 && fn % 16 = 2) ||
    (m = 100 && fn % 16 ≤ 1) || m = 103
def readsA (w : BitVec 32) : Bool :=
  let m := (fMajor w).toNat
  let fn := (fFn w).toNat
  (1 ≤ m && m ≤ 9) || (16 ≤ m && m ≤ 22) || (m = 23 && fn = 5) || m = 24 || (m = 34 && fn ≤ 1) || (48 ≤ m && m ≤ 89) || m = 98 ||
    (m = 99 && (fn % 16 = 2 || fn % 16 = 4 || fn % 16 = 5)) || m = 100 || m = 102 || m = 103
def readsB (w : BitVec 32) : Bool :=
  let m := (fMajor w).toNat
  let fn := (fFn w).toNat
  m = 1 || m = 16 || m = 24 || m = 88 || m = 89 || (m = 97 && fn ≤ 1) || m = 98 || (m = 99 && (fn % 16 = 2 || fn % 16 = 5)) || (m = 100 && fn % 16 ≤ 1)
def readsPreds (w : BitVec 32) : List Nat :=
  let m := (fMajor w).toNat
  let fn := (fFn w).toNat
  if m = 23 then (if fn ≤ 4 ∨ fn = 6 then [(fA w).toNat % 8] else []) ++ if fn ≤ 3 then [(fB w).toNat % 8] else []
  else if m = 24 then [fn % 8] else []

/-- Whether a word's D field names a register that it writes, and the predicates it writes. -/
def writesD (w : BitVec 32) : Bool :=
  let m := (fMajor w).toNat
  let fn := (fFn w).toNat
  (1 ≤ m && m ≤ 10) || (m = 23 && fn = 6) || m = 24 || (48 ≤ m && m ≤ 70) || m = 84 || m = 85 || m = 88 || m = 89 || (m = 97 && fn = 2) ||
    (m = 98 && (fn = 0 || fn = 2 || fn = 4)) || (m = 99 && (fn % 16 = 0 || fn % 16 = 3 || fn % 16 = 6)) || (m = 100 && 2 ≤ fn % 16) || m = 102
/-- Whether its A and B fields name registers that it writes second (R191, R198, R200, R201). -/
def writesA (w : BitVec 32) : Bool :=
  let m := (fMajor w).toNat
  let fn := (fFn w).toNat
  (m = 97 && fn = 2) || (m = 99 && (fn % 16 = 3 || fn % 16 = 6))
def writesB (w : BitVec 32) : Bool := (fMajor w).toNat = 100 && 2 ≤ (fFn w).toNat % 16
def writesPreds (w : BitVec 32) : List Nat :=
  let m := (fMajor w).toNat
  let fn := (fFn w).toNat
  if (16 ≤ m && m ≤ 22) || (m = 23 && fn ≠ 6) then [(fD w).toNat % 8]
  else if (m = 99 && (fn % 16 = 0 || fn % 16 = 3 || fn % 16 = 6)) || (m = 100 && 1 ≤ fn % 16) then [fn / 16]
  else []

/-- The registers a scalar word names beside its guard: S interlocks on those it reads and, since a later write must not be
overtaken, on those it writes (R24, R173; log entry 15). 32 + n stands for predicate n. -/
def scalarUses (w : BitVec 32) : List Nat :=
  (if readsD w || writesD w then [(fD w).toNat] else []) ++ (if readsA w || writesA w then [(fA w).toNat] else []) ++
    (if readsB w || writesB w then [(fB w).toNat] else []) ++ (readsPreds w ++ writesPreds w).map (32 + ·)

/-- Whether what a word names can be used by now (R24, R208). A false guard waits on nothing else (R173). -/
def usesReady (now : Nat) (k : Core) (w : BitVec 32) : Bool :=
  let free (r : Nat) : Bool := decide (mapGet 0 r k.su.ready ≤ k.cy) && decide (mapGet 0 r k.su.far ≤ now)
  free (32 + (fG w).toNat) && (!k.su.pred (fG w).toNat || (scalarUses w).all free)

/-- Whether S of a core tries an instruction in this cycle. -/
def scalarTries (now : Nat) (k : Core) : Bool :=
  k.mir.st = .running && decide (k.su.next ≤ k.cy) && decide (k.su.farNext ≤ now) && match k.su.wait with
  | .idle | .stalled | .passed => true
  | _ => false

/-- A fetch that failed: a suspension, or a trap in the instruction's place (R136, R357, R361). -/
def fetchFails (s : State) (c cause info : Nat) : State :=
  let s := s.modCore c fun k => { k with su := { k.su with word := 0 }, pr := { k.pr with failed := 0 } }
  if cause = 0x14 ∨ cause = 0x18 ∨ cause = 0x1A then reportS (detachCore s c) c cause 1 0 (s.core c).su.pc (some info)
  else trapS s c cause 0 (some (if cause = 0x19 then info else 0))

/-- Whether a word fails in decoding (R163): such a word waits on nothing, and its guard is not looked at. -/
def decodeFails (s : State) (c : Nat) (w : BitVec 32) : Bool :=
  match decodeScalar w with
  | none => true
  | some (.getcr _ _ a i) => (crDecode s c i.toNat a false).isSome
  | some (.setcr _ _ a i) => (crDecode s c i.toNat a true).isSome
  | some _ => false

/-- The state in which S executes a word. -/
def scalarState (s : State) (c : Nat) (w : BitVec 32) : State :=
  (watchStart { s with cur := (c, 0) } c).modS c fun u => { u with word := w }

/-- The instruction that a scalar word is, or the failure to decode it (R163). -/
noncomputable def scalarInstr (w : BitVec 32) : Instr := (decodeScalar w).getD (.scalarWordNotInstruction w)

/-- S's turn; the trap of a repetition comes before the next instruction (R378). -/
noncomputable def scalarIssue (s : State) (c : Nat) : Issue :=
  if scalarTries s.now (s.core c) then
    if (repRequest s c).isSome && betweenInstrs (s.core c).su then .run (.repetitionTrap c) s
    else
    match fetchS s c with
    | .wait t => .done t
    | .failed cause info => .done (fetchFails s c cause info)
    | .word w => if decodeFails s c w || usesReady s.now (s.core c) w then .run (scalarInstr w) (scalarState s c w) else .done s
  else .done s

/-! ### Engines -/

/-- Whether an engine looks at the entry at its head: it is forked and started, nothing has stopped it, and no entry of its own is still
under way (R16, R171, R262). -/
def engineTries (k : Core) (e : Nat) : Bool :=
  let g := k.engine e
  k.mir.st = .running && g.ring.forked && decide (g.ring.start ≤ k.cy) && g.stop = .run && decide (g.next ≤ k.cy) && (k.runOf e).isNone &&
    (e ≠ 4 || decide (k.v.next ≤ k.cy))

/-- The extension words of the entry whose first word is w. -/
def entryExts (s : State) (c e : Nat) (w : W64) : List W64 := (List.range (wordExts e w)).map fun i => ringWord s c e (headSkip (s.core c) e + i + 1)
/-- The words that must be present before an entry is looked at (R166): its opcode says how many; an unassigned one asks for none
beside the first. An entry in a loop waits for its own word alone (R213). -/
def entryNeeds (e : Nat) (w : W64) : Nat := 1 + wordExts e w
/-- The state in which an engine executes an entry. -/
def engineState (s : State) (c e : Nat) (w : W64) : State := { s with cur := (c, e) }.modEng c e fun g => { g with word := w }
/-- The command that an entry is, or the failure of check 1 or 2 (R171). -/
noncomputable def entryInstr (s : State) (c e : Nat) (w : W64) : Instr :=
  match entryCause s c e w with
  | some _ => .engineWordNotCommand w
  | none => (decodeEntry (engineMap e) w (entryExts s c e w)).getD (.engineWordNotCommand w)

/-- An engine's turn; numbers 7, 9, 10 and 11 are the arrays' own (R284, R291 to R293), number 8 the fetch port's of the core's cluster (R127). -/
noncomputable def engineIssue (s : State) (c e : Nat) : Issue :=
  if e = 7 then .done (if (s.core c).mir.st = .running then arraysTurn s c else s)
  else if e = 9 then .done (if (s.core c).mir.st = .running then rowPorts s c else s)
  else if e = 10 then .done (if (s.core c).mir.st = .running then rowsTurn s c else s)
  else if e = 11 then .done (drainStores s c)
  else if e = 8 then .done (fetchTurn s (clusterOf c))
  else if engineTries (s.core c) e && wordsAt s c e (headSkip (s.core c) e) 1 then
    let w := ringWord s c e (headSkip (s.core c) e)
    if !ringPoisoned s c e (headSkip (s.core c) e) 1 && !wordsAt s c e (headSkip (s.core c) e) (entryNeeds e w) then .done s
    else if (ringStall s c e (headSkip (s.core c) e) (entryNeeds e w)).isSome then .done (noteStall s (ringStall s c e (headSkip (s.core c) e) (entryNeeds e w)))
    else .run (entryInstr s c e w) (engineState s c e w)
  else .done s

/-- A unit's turn. -/
noncomputable def unitIssue (s : State) (c e : Nat) : Issue := if e = 0 then scalarIssue s c else engineIssue s c e

/-- A step that is not possible in the state it meets is passed over: the agenda lists what may happen, and an earlier turn of
the same pulse can have changed that. -/
def orElse (s : State) (o : Host.Outcome State Fault Refusal) : Host.Outcome State Fault Refusal :=
  match o with
  | .refused .notEnabled => .next s
  | o => o

end Sys2Proof.Machine
end

