-- ==== Sys2Proof/Machine/Dispatch.lean ====
section
/-! DEFINITION. The dispatch: one meaning per constructor of Instr. -/
namespace Sys2Proof.Machine

/-- One instruction, command, packet or unit step: the meaning of its constructor. -/
def exec (i : Instr) (s : State) : Host.Outcome State Fault Refusal :=
  match i with
  | .parkWake core => Sys2Proof.Machine.execParkWake core s
  | .parkTimeout core => Sys2Proof.Machine.execParkTimeout core s
  | .cdfBankSwitch core slot => Sys2Proof.Machine.execCdfBankSwitch core slot s
  | .resultLanding core => Sys2Proof.Machine.execResultLanding core s
  | .tokenPush core frm dest => Sys2Proof.Machine.execTokenPush core frm dest s
  | .inboxPush core => Sys2Proof.Machine.execInboxPush core s
  | .networkCompletionToken cl => Sys2Proof.Machine.execNetworkCompletionToken cl s
  | .messageArrival id => Sys2Proof.Machine.execMessageArrival id s
  | .xtBankFull core bank => Sys2Proof.Machine.execXtBankFull core bank s
  | .dqElementPush core eng => Sys2Proof.Machine.execDqElementPush core eng s
  | .sqElementPop core => Sys2Proof.Machine.execSqElementPop core s
  | .leaseGrant cl => Sys2Proof.Machine.execLeaseGrant cl s
  | .mmulBlockWrite core => Sys2Proof.Machine.execMmulBlockWrite core s
  | .mmulDrainStart core => Sys2Proof.Machine.execMmulDrainStart core s
  | .mdrainComplete core => Sys2Proof.Machine.execMdrainComplete core s
  | .operandFetchArrival core => Sys2Proof.Machine.execOperandFetchArrival core s
  | .copyChannelStart cl ch => Sys2Proof.Machine.execCopyChannelStart cl ch s
  | .copyBytesLand cl ch => Sys2Proof.Machine.execCopyBytesLand cl ch s
  | .copyComplete cl ch => Sys2Proof.Machine.execCopyComplete cl ch s
  | .accRowWrite cl ch => Sys2Proof.Machine.execAccRowWrite cl ch s
  | .frontEndMulticast cl => Sys2Proof.Machine.execFrontEndMulticast cl s
  | .voteResolve cl => Sys2Proof.Machine.execVoteResolve cl s
  | .joinTimeout cl => Sys2Proof.Machine.execJoinTimeout cl s
  | .frontEndRestart cl => Sys2Proof.Machine.execFrontEndRestart cl s
  | .fetchLineArrival cl party => Sys2Proof.Machine.execFetchLineArrival cl party s
  | .poolPutArrival id => Sys2Proof.Machine.execPoolPutArrival id s
  | .insertCounted id => Sys2Proof.Machine.execInsertCounted id s
  | .poolSnapshot pool => Sys2Proof.Machine.execPoolSnapshot pool s
  | .snapshotArrival id => Sys2Proof.Machine.execSnapshotArrival id s
  | .takeDecide pool shard => Sys2Proof.Machine.execTakeDecide pool shard s
  | .takeForwardArrival id => Sys2Proof.Machine.execTakeForwardArrival id s
  | .takePromotion pool shard => Sys2Proof.Machine.execTakePromotion pool shard s
  | .forcedRoundServe id => Sys2Proof.Machine.execForcedRoundServe id s
  | .migrationTransfer id => Sys2Proof.Machine.execMigrationTransfer id s
  | .poolResultReturn id => Sys2Proof.Machine.execPoolResultReturn id s
  | .translationWalkDone id => Sys2Proof.Machine.execTranslationWalkDone id s
  | .faultRecordWrite die => Sys2Proof.Machine.execFaultRecordWrite die s
  | .saveWrite core => Sys2Proof.Machine.execSaveWrite core s
  | .pktEnd die w => Sys2Proof.Machine.execPktEnd die w s
  | .pktLaunch die w a => Sys2Proof.Machine.execPktLaunch die w a s
  | .pktLaunchi die w a b => Sys2Proof.Machine.execPktLaunchi die w a b s
  | .pktXfer die w a b c => Sys2Proof.Machine.execPktXfer die w a b c s
  | .pktLoop die w => Sys2Proof.Machine.execPktLoop die w s
  | .pktLoopi die w a => Sys2Proof.Machine.execPktLoopi die w a s
  | .pktEndloop die w => Sys2Proof.Machine.execPktEndloop die w s
  | .pktSkipif die w a b => Sys2Proof.Machine.execPktSkipif die w a b s
  | .pktWait die w => Sys2Proof.Machine.execPktWait die w s
  | .entryIssue seq => Sys2Proof.Machine.execEntryIssue seq s
  | .strandStart core => Sys2Proof.Machine.execStrandStart core s
  | .priorityAgeing seq => Sys2Proof.Machine.execPriorityAgeing seq s
  | .xferCopyStart seq => Sys2Proof.Machine.execXferCopyStart seq s
  | .xferResident seq => Sys2Proof.Machine.execXferResident seq s
  | .kernelRetire seq => Sys2Proof.Machine.execKernelRetire seq s
  | .tagStateArrival id => Sys2Proof.Machine.execTagStateArrival id s
  | .throttleWindow cl => Sys2Proof.Machine.execThrottleWindow cl s
  | .watchdogIntervalEnd core => Sys2Proof.Machine.execWatchdogIntervalEnd core s
  | .deliveryTurn die => Sys2Proof.Machine.execDeliveryTurn die s
  | .repetitionTrap core => Sys2Proof.Machine.execRepetitionTrap core s
  | .tsuiqCopyComplete port => Sys2Proof.Machine.execTsuiqCopyComplete port s
  | .takeArrival id => Sys2Proof.Machine.execTakeArrival id s
  | .putStopArrival pool shard => Sys2Proof.Machine.execPutStopArrival pool shard s
  | .errorFreezeEnd cl => Sys2Proof.Machine.execErrorFreezeEnd cl s
  | .add g d a b => Sys2Proof.Machine.execAdd g d a b s
  | .sub g d a b => Sys2Proof.Machine.execSub g d a b s
  | .and g d a b => Sys2Proof.Machine.execAnd g d a b s
  | .or g d a b => Sys2Proof.Machine.execOr g d a b s
  | .xor g d a b => Sys2Proof.Machine.execXor g d a b s
  | .andn g d a b => Sys2Proof.Machine.execAndn g d a b s
  | .sll g d a b => Sys2Proof.Machine.execSll g d a b s
  | .srl g d a b => Sys2Proof.Machine.execSrl g d a b s
  | .sra g d a b => Sys2Proof.Machine.execSra g d a b s
  | .mul g d a b => Sys2Proof.Machine.execMul g d a b s
  | .mulh g d a b => Sys2Proof.Machine.execMulh g d a b s
  | .mulhn g d a b => Sys2Proof.Machine.execMulhn g d a b s
  | .div g d a b => Sys2Proof.Machine.execDiv g d a b s
  | .divn g d a b => Sys2Proof.Machine.execDivn g d a b s
  | .rem g d a b => Sys2Proof.Machine.execRem g d a b s
  | .remn g d a b => Sys2Proof.Machine.execRemn g d a b s
  | .min g d a b => Sys2Proof.Machine.execMin g d a b s
  | .max g d a b => Sys2Proof.Machine.execMax g d a b s
  | .minn g d a b => Sys2Proof.Machine.execMinn g d a b s
  | .maxn g d a b => Sys2Proof.Machine.execMaxn g d a b s
  | .clz g d a => Sys2Proof.Machine.execClz g d a s
  | .ctz g d a => Sys2Proof.Machine.execCtz g d a s
  | .popc g d a => Sys2Proof.Machine.execPopc g d a s
  | .clmul g d a b => Sys2Proof.Machine.execClmul g d a b s
  | .clmulh g d a b => Sys2Proof.Machine.execClmulh g d a b s
  | .sh1add g d a b => Sys2Proof.Machine.execSh1add g d a b s
  | .sh2add g d a b => Sys2Proof.Machine.execSh2add g d a b s
  | .sh3add g d a b => Sys2Proof.Machine.execSh3add g d a b s
  | .sh4add g d a b => Sys2Proof.Machine.execSh4add g d a b s
  | .addi g d a fi => Sys2Proof.Machine.execAddi g d a fi s
  | .muli g d a fi => Sys2Proof.Machine.execMuli g d a fi s
  | .andi g d a fi => Sys2Proof.Machine.execAndi g d a fi s
  | .ori g d a fi => Sys2Proof.Machine.execOri g d a fi s
  | .xori g d a fi => Sys2Proof.Machine.execXori g d a fi s
  | .slli g d a fi => Sys2Proof.Machine.execSlli g d a fi s
  | .srli g d a fi => Sys2Proof.Machine.execSrli g d a fi s
  | .srai g d a fi => Sys2Proof.Machine.execSrai g d a fi s
  | .li g d fi => Sys2Proof.Machine.execLi g d fi s
  | .lsi g d fi => Sys2Proof.Machine.execLsi g d fi s
  | .cmpEq g p a b => Sys2Proof.Machine.execCmpEq g p a b s
  | .cmpNe g p a b => Sys2Proof.Machine.execCmpNe g p a b s
  | .cmpLt g p a b => Sys2Proof.Machine.execCmpLt g p a b s
  | .cmpGe g p a b => Sys2Proof.Machine.execCmpGe g p a b s
  | .cmpLtn g p a b => Sys2Proof.Machine.execCmpLtn g p a b s
  | .cmpGen g p a b => Sys2Proof.Machine.execCmpGen g p a b s
  | .cmpiEq g p a fi => Sys2Proof.Machine.execCmpiEq g p a fi s
  | .cmpiNe g p a fi => Sys2Proof.Machine.execCmpiNe g p a fi s
  | .cmpiLt g p a fi => Sys2Proof.Machine.execCmpiLt g p a fi s
  | .cmpiGe g p a fi => Sys2Proof.Machine.execCmpiGe g p a fi s
  | .cmpiLtn g p a fi => Sys2Proof.Machine.execCmpiLtn g p a fi s
  | .cmpiGen g p a fi => Sys2Proof.Machine.execCmpiGen g p a fi s
  | .pand g p q r => Sys2Proof.Machine.execPand g p q r s
  | .por g p q r => Sys2Proof.Machine.execPor g p q r s
  | .pxor g p q r => Sys2Proof.Machine.execPxor g p q r s
  | .pandn g p q r => Sys2Proof.Machine.execPandn g p q r s
  | .pnot g p q => Sys2Proof.Machine.execPnot g p q s
  | .pset g p a => Sys2Proof.Machine.execPset g p a s
  | .pget g d q => Sys2Proof.Machine.execPget g d q s
  | .sel g d a b p => Sys2Proof.Machine.execSel g d a b p s
  | .br g o => Sys2Proof.Machine.execBr g o s
  | .call g o => Sys2Proof.Machine.execCall g o s
  | .jr g a => Sys2Proof.Machine.execJr g a s
  | .callr g a => Sys2Proof.Machine.execCallr g a s
  | .ret g => Sys2Proof.Machine.execRet g s
  | .detach g => Sys2Proof.Machine.execDetach g s
  | .join g p t => Sys2Proof.Machine.execJoin g p t s
  | .ldI8 g d a c o => Sys2Proof.Machine.execLdI8 g d a c o s
  | .ldN8 g d a c o => Sys2Proof.Machine.execLdN8 g d a c o s
  | .ldI16 g d a c o => Sys2Proof.Machine.execLdI16 g d a c o s
  | .ldN16 g d a c o => Sys2Proof.Machine.execLdN16 g d a c o s
  | .ldI32 g d a c o => Sys2Proof.Machine.execLdI32 g d a c o s
  | .ldN32 g d a c o => Sys2Proof.Machine.execLdN32 g d a c o s
  | .ldN64 g d a c o => Sys2Proof.Machine.execLdN64 g d a c o s
  | .ldI8W g d a c o => Sys2Proof.Machine.execLdI8W g d a c o s
  | .ldN8W g d a c o => Sys2Proof.Machine.execLdN8W g d a c o s
  | .ldI16W g d a c o => Sys2Proof.Machine.execLdI16W g d a c o s
  | .ldN16W g d a c o => Sys2Proof.Machine.execLdN16W g d a c o s
  | .ldI32W g d a c o => Sys2Proof.Machine.execLdI32W g d a c o s
  | .ldN32W g d a c o => Sys2Proof.Machine.execLdN32W g d a c o s
  | .ldN64W g d a c o => Sys2Proof.Machine.execLdN64W g d a c o s
  | .ldI8Wc g d a c o => Sys2Proof.Machine.execLdI8Wc g d a c o s
  | .ldN8Wc g d a c o => Sys2Proof.Machine.execLdN8Wc g d a c o s
  | .ldI16Wc g d a c o => Sys2Proof.Machine.execLdI16Wc g d a c o s
  | .ldN16Wc g d a c o => Sys2Proof.Machine.execLdN16Wc g d a c o s
  | .ldI32Wc g d a c o => Sys2Proof.Machine.execLdI32Wc g d a c o s
  | .ldN32Wc g d a c o => Sys2Proof.Machine.execLdN32Wc g d a c o s
  | .ldN64Wc g d a c o => Sys2Proof.Machine.execLdN64Wc g d a c o s
  | .stN8 g d a c o => Sys2Proof.Machine.execStN8 g d a c o s
  | .stN16 g d a c o => Sys2Proof.Machine.execStN16 g d a c o s
  | .stN32 g d a c o => Sys2Proof.Machine.execStN32 g d a c o s
  | .stN64 g d a c o => Sys2Proof.Machine.execStN64 g d a c o s
  | .stN8Set g d a c o => Sys2Proof.Machine.execStN8Set g d a c o s
  | .stN16Set g d a c o => Sys2Proof.Machine.execStN16Set g d a c o s
  | .stN32Set g d a c o => Sys2Proof.Machine.execStN32Set g d a c o s
  | .stN64Set g d a c o => Sys2Proof.Machine.execStN64Set g d a c o s
  | .stN8Clr g d a c o => Sys2Proof.Machine.execStN8Clr g d a c o s
  | .stN16Clr g d a c o => Sys2Proof.Machine.execStN16Clr g d a c o s
  | .stN32Clr g d a c o => Sys2Proof.Machine.execStN32Clr g d a c o s
  | .stN64Clr g d a c o => Sys2Proof.Machine.execStN64Clr g d a c o s
  | .aldN32 g d a c o => Sys2Proof.Machine.execAldN32 g d a c o s
  | .aldN64 g d a c o => Sys2Proof.Machine.execAldN64 g d a c o s
  | .astN32 g d a c o => Sys2Proof.Machine.execAstN32 g d a c o s
  | .astN64 g d a c o => Sys2Proof.Machine.execAstN64 g d a c o s
  | .aaddN32 g d a b c => Sys2Proof.Machine.execAaddN32 g d a b c s
  | .aswpN32 g d a b c => Sys2Proof.Machine.execAswpN32 g d a b c s
  | .amaxI32 g d a b c => Sys2Proof.Machine.execAmaxI32 g d a b c s
  | .amaxN32 g d a b c => Sys2Proof.Machine.execAmaxN32 g d a b c s
  | .aminI32 g d a b c => Sys2Proof.Machine.execAminI32 g d a b c s
  | .aminN32 g d a b c => Sys2Proof.Machine.execAminN32 g d a b c s
  | .aorN32 g d a b c => Sys2Proof.Machine.execAorN32 g d a b c s
  | .acasN32 g d a b c => Sys2Proof.Machine.execAcasN32 g d a b c s
  | .aaddN64 g d a b c => Sys2Proof.Machine.execAaddN64 g d a b c s
  | .aswpN64 g d a b c => Sys2Proof.Machine.execAswpN64 g d a b c s
  | .amaxI64 g d a b c => Sys2Proof.Machine.execAmaxI64 g d a b c s
  | .amaxN64 g d a b c => Sys2Proof.Machine.execAmaxN64 g d a b c s
  | .aminI64 g d a b c => Sys2Proof.Machine.execAminI64 g d a b c s
  | .aminN64 g d a b c => Sys2Proof.Machine.execAminN64 g d a b c s
  | .aorN64 g d a b c => Sys2Proof.Machine.execAorN64 g d a b c s
  | .acasN64 g d a b c => Sys2Proof.Machine.execAcasN64 g d a b c s
  | .fence g sc m => Sys2Proof.Machine.execFence g sc m s
  | .fork g e => Sys2Proof.Machine.execFork g e s
  | .rdv g e => Sys2Proof.Machine.execRdv g e s
  | .tksig g e => Sys2Proof.Machine.execTksig g e s
  | .tkwait g e => Sys2Proof.Machine.execTkwait g e s
  | .enq g e b => Sys2Proof.Machine.execEnq g e b s
  | .ksend g k b => Sys2Proof.Machine.execKsend g k b s
  | .ipop g d a => Sys2Proof.Machine.execIpop g d a s
  | .hset g d a b => Sys2Proof.Machine.execHset g d a b s
  | .hfree g a => Sys2Proof.Machine.execHfree g a s
  | .hget g d a b => Sys2Proof.Machine.execHget g d a b s
  | .bexp g a b => Sys2Proof.Machine.execBexp g a b s
  | .barr g d a => Sys2Proof.Machine.execBarr g d a s
  | .bwait g a b => Sys2Proof.Machine.execBwait g a b s
  | .bmset g d a b => Sys2Proof.Machine.execBmset g d a b s
  | .bmcopy g d a b => Sys2Proof.Machine.execBmcopy g d a b s
  | .dwait g d p => Sys2Proof.Machine.execDwait g d p s
  | .trig g => Sys2Proof.Machine.execTrig g s
  | .rtnew g d a b => Sys2Proof.Machine.execRtnew g d a b s
  | .rtclaim g d a p => Sys2Proof.Machine.execRtclaim g d a p s
  | .done g a => Sys2Proof.Machine.execDone g a s
  | .tmsg g a b => Sys2Proof.Machine.execTmsg g a b s
  | .trecv g d a p => Sys2Proof.Machine.execTrecv g d a p s
  | .pput g d a b => Sys2Proof.Machine.execPput g d a b s
  | .pputTry g d a b p => Sys2Proof.Machine.execPputTry g d a b p s
  | .ptake g d a b p => Sys2Proof.Machine.execPtake g d a b p s
  | .ppeek g d a b p => Sys2Proof.Machine.execPpeek g d a b p s
  | .exit g => Sys2Proof.Machine.execExit g s
  | .hbeat g => Sys2Proof.Machine.execHbeat g s
  | .swtrap g n => Sys2Proof.Machine.execSwtrap g n s
  | .eret g => Sys2Proof.Machine.execEret g s
  | .getcr g d a fi => Sys2Proof.Machine.execGetcr g d a fi s
  | .setcr g d a fi => Sys2Proof.Machine.execSetcr g d a fi s
  | .lEnop w => Sys2Proof.Machine.execLEnop w s
  | .lstrm w x1 x2 x3 => Sys2Proof.Machine.execLstrm w x1 x2 x3 s
  | .lgathBm w x1 x2 x3 => Sys2Proof.Machine.execLgathBm w x1 x2 x3 s
  | .lgathRl w x1 x2 x3 => Sys2Proof.Machine.execLgathRl w x1 x2 x3 s
  | .lcbx w x1 x2 => Sys2Proof.Machine.execLcbx w x1 x2 s
  | .lcbtab w x1 => Sys2Proof.Machine.execLcbtab w x1 s
  | .lpkld w x1 x2 => Sys2Proof.Machine.execLpkld w x1 x2 s
  | .lbmg w x1 x2 x3 => Sys2Proof.Machine.execLbmg w x1 x2 x3 s
  | .wSetrm w => Sys2Proof.Machine.execWSetrm w s
  | .wEnop w => Sys2Proof.Machine.execWEnop w s
  | .wstrm w x1 x2 x3 => Sys2Proof.Machine.execWstrm w x1 x2 x3 s
  | .wpkst w x1 x2 => Sys2Proof.Machine.execWpkst w x1 x2 s
  | .wscat w x1 x2 x3 => Sys2Proof.Machine.execWscat w x1 x2 x3 s
  | .mSetrm w => Sys2Proof.Machine.execMSetrm w s
  | .mEnop w => Sys2Proof.Machine.execMEnop w s
  | .mlease w => Sys2Proof.Machine.execMlease w s
  | .mrel w => Sys2Proof.Machine.execMrel w s
  | .mmul w x1 => Sys2Proof.Machine.execMmul w x1 s
  | .mmul2 w x1 x2 => Sys2Proof.Machine.execMmul2 w x1 x2 s
  | .mdrain w x1 x2 => Sys2Proof.Machine.execMdrain w x1 x2 s
  | .mzero w => Sys2Proof.Machine.execMzero w s
  | .cSetrm w => Sys2Proof.Machine.execCSetrm w s
  | .cEnop w => Sys2Proof.Machine.execCEnop w s
  | .ccopy w x1 x2 => Sys2Proof.Machine.execCcopy w x1 x2 s
  | .cwin w x1 x2 x3 => Sys2Proof.Machine.execCwin w x1 x2 x3 s
  | .cadd w x1 x2 => Sys2Proof.Machine.execCadd w x1 x2 s
  | .caccld w x1 => Sys2Proof.Machine.execCaccld w x1 s
  | .caccst w x1 => Sys2Proof.Machine.execCaccst w x1 s
  | .cexp w x1 => Sys2Proof.Machine.execCexp w x1 s
  | .carr w x1 => Sys2Proof.Machine.execCarr w x1 s
  | .fqAckRetry die seq => Sys2Proof.Machine.execFqAckRetry die seq s
  | .fqAckSkip die seq => Sys2Proof.Machine.execFqAckSkip die seq s
  | .fqAckKill die seq => Sys2Proof.Machine.execFqAckKill die seq s
  | .trInv w => Sys2Proof.Machine.execTrInv w s
  | .trInvComplete => Sys2Proof.Machine.execTrInvComplete s
  | .mirNone core => Sys2Proof.Machine.execMirNone core s
  | .freeze core => Sys2Proof.Machine.execFreeze core s
  | .save core => Sys2Proof.Machine.execSave core s
  | .imgout core => Sys2Proof.Machine.execImgout core s
  | .imgin core ctx => Sys2Proof.Machine.execImgin core ctx s
  | .load core ctx => Sys2Proof.Machine.execLoadArea core ctx s
  | .resume core => Sys2Proof.Machine.execResume core s
  | .discard core => Sys2Proof.Machine.execDiscard core s
  | .mirReserved core cmd => Sys2Proof.Machine.execMirReserved core cmd s
  | .cpGo cl w => Sys2Proof.Machine.execCpGo cl w s
  | .streamStart die w => Sys2Proof.Machine.execStreamStart die w s
  | .cmdResume die ctx => Sys2Proof.Machine.execCmdResume die ctx s
  | .correctableError cl => Sys2Proof.Machine.execCorrectableError cl s
  | .uncorrectableError kind where_ => Sys2Proof.Machine.execUncorrectableError kind where_ s
  | .stateLost kind n => Sys2Proof.Machine.execStateLost kind n s
  | .fatalError die unit => Sys2Proof.Machine.execFatalError die unit s
  | .dlvDescWrite die w => Sys2Proof.Machine.execDlvDescWrite die w s
  | .sysPartWrite w => Sys2Proof.Machine.execSysPartWrite w s
  | .tsuiqCopy port src dst len tag => Sys2Proof.Machine.execTsuiqCopy port src dst len tag s
  | .pcieBar2Write addr len w => Sys2Proof.Machine.execPcieBar2Write addr len w s
  | .powerGood => Sys2Proof.Machine.execPowerGood s
  | .bootStageTimeout => Sys2Proof.Machine.execBootStageTimeout s
  | .sysReadyWrite w => Sys2Proof.Machine.execSysReadyWrite w s
  | .updateWrite version len ok => Sys2Proof.Machine.execUpdateWrite version len ok s
  | .sensorSample die sensor w => Sys2Proof.Machine.execSensorSample die sensor w s
  | .eventLogTick => Sys2Proof.Machine.execEventLogTick s
  | .windowRegisterWrite off w => Sys2Proof.Machine.execWindowRegisterWrite off w s
  | .contextCreate ctx => Sys2Proof.Machine.execContextCreate ctx s
  | .poolAllocate pool grant => Sys2Proof.Machine.execPoolAllocate pool grant s
  | .poolFree pool => Sys2Proof.Machine.execPoolFree pool s
  | .scalarWordNotInstruction w => Sys2Proof.Machine.execScalarWordNotInstruction w s
  | .engineWordNotCommand w => Sys2Proof.Machine.execEngineWordNotCommand w s
  | .systemWriterWrite unit addr len w => Sys2Proof.Machine.execSystemWriterWrite unit addr len w s
  | .bootStageDone => Sys2Proof.Machine.execBootStageDone s
  | .powerDown => Sys2Proof.Machine.execPowerDown s
  | .tsuiqLinkLost port => Sys2Proof.Machine.execTsuiqLinkLost port s
  | .vSetrm w => Sys2Proof.Machine.execVSetrm w s
  | .vEnop w => Sys2Proof.Machine.execVEnop w s
  | .vtos w => Sys2Proof.Machine.execVtos w s
  | .vloop w => Sys2Proof.Machine.execVloop w s
  | .vdefer w => Sys2Proof.Machine.execVdefer w s
  | .vdrain w => Sys2Proof.Machine.execVdrain w s
  | .vsel w => Sys2Proof.Machine.execVsel w s
  | .vmand w => Sys2Proof.Machine.execVmand w s
  | .vmor w => Sys2Proof.Machine.execVmor w s
  | .vmxor w => Sys2Proof.Machine.execVmxor w s
  | .vmandn w => Sys2Proof.Machine.execVmandn w s
  | .vmnot w => Sys2Proof.Machine.execVmnot w s
  | .vmpop w => Sys2Proof.Machine.execVmpop w s
  | .vaddI32 w => Sys2Proof.Machine.execVaddI32 w s
  | .vsubI32 w => Sys2Proof.Machine.execVsubI32 w s
  | .vmulI32 w => Sys2Proof.Machine.execVmulI32 w s
  | .vmulhI32 w => Sys2Proof.Machine.execVmulhI32 w s
  | .vmulhN32 w => Sys2Proof.Machine.execVmulhN32 w s
  | .vdivI32 w => Sys2Proof.Machine.execVdivI32 w s
  | .vdivN32 w => Sys2Proof.Machine.execVdivN32 w s
  | .vminI32 w => Sys2Proof.Machine.execVminI32 w s
  | .vmaxI32 w => Sys2Proof.Machine.execVmaxI32 w s
  | .vminN32 w => Sys2Proof.Machine.execVminN32 w s
  | .vmaxN32 w => Sys2Proof.Machine.execVmaxN32 w s
  | .vaddsI32 w => Sys2Proof.Machine.execVaddsI32 w s
  | .vand w => Sys2Proof.Machine.execVand w s
  | .vor w => Sys2Proof.Machine.execVor w s
  | .vxor w => Sys2Proof.Machine.execVxor w s
  | .vandn w => Sys2Proof.Machine.execVandn w s
  | .vsll w => Sys2Proof.Machine.execVsll w s
  | .vsrl w => Sys2Proof.Machine.execVsrl w s
  | .vsra w => Sys2Proof.Machine.execVsra w s
  | .vclz w => Sys2Proof.Machine.execVclz w s
  | .vclmul w => Sys2Proof.Machine.execVclmul w s
  | .vclmulh w => Sys2Proof.Machine.execVclmulh w s
  | .vaddF32 w => Sys2Proof.Machine.execVaddF32 w s
  | .vsubF32 w => Sys2Proof.Machine.execVsubF32 w s
  | .vmulF32 w => Sys2Proof.Machine.execVmulF32 w s
  | .vfmaF32 w => Sys2Proof.Machine.execVfmaF32 w s
  | .vfmsF32 w => Sys2Proof.Machine.execVfmsF32 w s
  | .vdivF32 w => Sys2Proof.Machine.execVdivF32 w s
  | .vsqrtF32 w => Sys2Proof.Machine.execVsqrtF32 w s
  | .vminF32 w => Sys2Proof.Machine.execVminF32 w s
  | .vmaxF32 w => Sys2Proof.Machine.execVmaxF32 w s
  | .vabsF32 w => Sys2Proof.Machine.execVabsF32 w s
  | .vnegF32 w => Sys2Proof.Machine.execVnegF32 w s
  | .vexp2F32 w => Sys2Proof.Machine.execVexp2F32 w s
  | .vcmpEqI32 w => Sys2Proof.Machine.execVcmpEqI32 w s
  | .vcmpLtI32 w => Sys2Proof.Machine.execVcmpLtI32 w s
  | .vcmpLeI32 w => Sys2Proof.Machine.execVcmpLeI32 w s
  | .vcmpLtN32 w => Sys2Proof.Machine.execVcmpLtN32 w s
  | .vcmpEqF32 w => Sys2Proof.Machine.execVcmpEqF32 w s
  | .vcmpLtF32 w => Sys2Proof.Machine.execVcmpLtF32 w s
  | .vcmpLeF32 w => Sys2Proof.Machine.execVcmpLeF32 w s
  | .vcmpUnF32 w => Sys2Proof.Machine.execVcmpUnF32 w s
  | .vcvtF32I32 w => Sys2Proof.Machine.execVcvtF32I32 w s
  | .vcvtI32F32 w => Sys2Proof.Machine.execVcvtI32F32 w s
  | .vcvtF32F16 w => Sys2Proof.Machine.execVcvtF32F16 w s
  | .vcvtF32Bf16 w => Sys2Proof.Machine.execVcvtF32Bf16 w s
  | .vcvtF16F32 w => Sys2Proof.Machine.execVcvtF16F32 w s
  | .vcvtBf16F32 w => Sys2Proof.Machine.execVcvtBf16F32 w s
  | .vnarrow w => Sys2Proof.Machine.execVnarrow w s
  | .vwiden w => Sys2Proof.Machine.execVwiden w s
  | .vperm w => Sys2Proof.Machine.execVperm w s
  | .vslideup w => Sys2Proof.Machine.execVslideup w s
  | .vslidedn w => Sys2Proof.Machine.execVslidedn w s
  | .vbcast w => Sys2Proof.Machine.execVbcast w s
  | .vmov w => Sys2Proof.Machine.execVmov w s
  | .vredaddF32 w => Sys2Proof.Machine.execVredaddF32 w s
  | .vredaddF64 w => Sys2Proof.Machine.execVredaddF64 w s
  | .vredmaxF32 w => Sys2Proof.Machine.execVredmaxF32 w s
  | .vredaddI32 w => Sys2Proof.Machine.execVredaddI32 w s
  | .vtopk w => Sys2Proof.Machine.execVtopk w s
  | .rcinitD w => Sys2Proof.Machine.execRcinitD w s
  | .rcinitE w => Sys2Proof.Machine.execRcinitE w s
  | .rcfin w => Sys2Proof.Machine.execRcfin w s
  | .rcstat w => Sys2Proof.Machine.execRcstat w s
  | .rcdec w => Sys2Proof.Machine.execRcdec w s
  | .rcdecm w => Sys2Proof.Machine.execRcdecm w s
  | .rcenc w => Sys2Proof.Machine.execRcenc w s
  | .rcencm w => Sys2Proof.Machine.execRcencm w s
  | .rckpt w => Sys2Proof.Machine.execRckpt w s
  | .rcroll w => Sys2Proof.Machine.execRcroll w s
  | .qsq w => Sys2Proof.Machine.execQsq w s
  | .qmov w => Sys2Proof.Machine.execQmov w s
  | .qadapt w => Sys2Proof.Machine.execQadapt w s
  | .cdfsw w => Sys2Proof.Machine.execCdfsw w s

end Sys2Proof.Machine
end

