-- ==== Sys2Proof/Machine/Step.lean ====
section
/-! DEFINITION. The step: the next turn of the agenda, or, when it is empty, the next cycle boundary; and withFetchWord. -/
namespace Sys2Proof.Machine

/-- One turn: an instruction that its unit issues, or a unit's own step. -/
noncomputable def runTurn (s : State) (t : Turn) : Host.Outcome State Fault Refusal :=
  match t with
  | .event i => orElse s (exec i s)
  | .unit c e =>
    match unitIssue s c e with
    | .done s => .next s
    | .run i t => exec i t

/-- One step of the machine (log entry 3). -/
noncomputable def step (s : State) : Host.Outcome State Fault Refusal :=
  match s.agenda with
  | t :: r => runTurn { s with agenda := r } t
  | [] =>
    match tick s with
    | some t => .next t
    | none => .fault .stopped

/-- Core 0 with a strand that is detached, and a word in its private buffer at its pc. -/
def fetchScalar (s : State) (w : BitVec 32) : State :=
  let k := s.core 0
  { s with agenda := [.unit 0 0] }.setCore 0
    { k with mir := { k.mir with st := .running }
             su := { k.su with pc := 0, next := 0, performed := 0, farNext := 0, farDone := 0, wait := .idle, ready := [], far := [] }
             pr := { k.pr with bound := false, failed := 0, pbuf := [⟨0, w :: List.replicate 15 0⟩] } }

/-- Core 0 with a strand whose V runs a fed ring at the base of its memory that holds one word. -/
def fetchVector (s : State) (w : BitVec 64) : State :=
  let k := s.core 0
  let g : Eng := { Eng.reset with ring := { Ring.reset with declared := true, forked := true, tail := 1 } }
  { s with agenda := [.unit 0 4], mem := memPutNat s.mem (coreBase 0) w.toNat 8 }.setCore 0
    { k with mir := { k.mir with st := .running }, eng := mapSet 4 g k.eng, v := { k.v with next := 0, push := [] } }

/-- The state whose next step fetches and runs exactly the given word (log entry 9). -/
def State.withFetchWord (s : State) (nbits w : Nat) : State :=
  if nbits = 32 then fetchScalar s (BitVec.ofNat 32 w) else fetchVector s (BitVec.ofNat 64 w)

end Sys2Proof.Machine
end

