-- ==== Sys2Proof/WellFormed.lean ====
section
/-! DEFINITION. Well-formed instructions: the operands that an encoding of the manual can carry and that the checks of
R163 and R171 let pass, and for a unit's step the numbers that its units have (R8, R12, R112, R139, R321, R386). -/
namespace Sys2Proof
open Machine

/-- A V command word whose checks 3 to 6 pass at some place (R171): a stage other than zero belongs in a loop (R230). -/
def vWf (f : VForm) (w : VWord) : Bool := (f.fault true w).isNone

/-- A command word of an engine of the given numbers whose checks 3, 4 and 6 pass in one of them; its WAIT is no MARK (R165). -/
def eWf (owns : List Nat) (w : EWord) (ok : Bool) (round : RF) : Bool := w.wait ≠ 0xFF#8 && owns.any fun e => (eFault e w ok round).isNone

/-- An instruction whose operands are as the manual has them. -/
def Instr.wf : Instr → Bool
  | .parkWake core => decide (core < 1280)
  | .parkTimeout core => decide (core < 1280)
  | .cdfBankSwitch core slot => decide (core < 1280) && decide (slot < 16)
  | .resultLanding core => decide (core < 1280)
  | .tokenPush core frm dest => decide (core < 1280) && decide (frm < 8) && decide (dest < 8)
  | .inboxPush core => decide (core < 1280)
  | .networkCompletionToken cl => decide (cl < 160)
  | .messageArrival _ => true
  | .xtBankFull core bank => decide (core < 1280) && decide (bank < 16)
  | .dqElementPush core eng => decide (core < 1280) && (eng = 1 || eng = 2)
  | .sqElementPop core => decide (core < 1280)
  | .leaseGrant cl => decide (cl < 160)
  | .mmulBlockWrite core => decide (core < 1280)
  | .mmulDrainStart core => decide (core < 1280)
  | .mdrainComplete core => decide (core < 1280)
  | .operandFetchArrival core => decide (core < 1280)
  | .copyChannelStart cl ch => decide (cl < 160) && decide (ch < 16)
  | .copyBytesLand cl ch => decide (cl < 160) && decide (ch < 16)
  | .copyComplete cl ch => decide (cl < 160) && decide (ch < 16)
  | .accRowWrite cl ch => decide (cl < 160) && decide (ch < 16)
  | .frontEndMulticast cl => decide (cl < 160)
  | .voteResolve cl => decide (cl < 160)
  | .joinTimeout cl => decide (cl < 160)
  | .frontEndRestart cl => decide (cl < 160)
  | .fetchLineArrival cl party => decide (cl < 160) && decide (party < 9)
  | .poolPutArrival _ => true
  | .insertCounted _ => true
  | .poolSnapshot pool => decide (pool < 64)
  | .snapshotArrival _ => true
  | .takeDecide pool shard => decide (pool < 64) && decide (shard < 4)
  | .takeForwardArrival _ => true
  | .takePromotion pool shard => decide (pool < 64) && decide (shard < 4)
  | .forcedRoundServe _ => true
  | .migrationTransfer _ => true
  | .poolResultReturn _ => true
  | .translationWalkDone _ => true
  | .faultRecordWrite die => decide (die < 4)
  | .saveWrite core => decide (core < 1280)
  | .pktEnd die _ => decide (die < 4)
  | .pktLaunch die _ _ => decide (die < 4)
  | .pktLaunchi die _ _ _ => decide (die < 4)
  | .pktXfer die _ _ _ _ => decide (die < 4)
  | .pktLoop die _ => decide (die < 4)
  | .pktLoopi die _ _ => decide (die < 4)
  | .pktEndloop die _ => decide (die < 4)
  | .pktSkipif die _ _ _ => decide (die < 4)
  | .pktWait die _ => decide (die < 4)
  | .entryIssue _ => true
  | .strandStart core => decide (core < 1280)
  | .priorityAgeing _ => true
  | .xferCopyStart _ => true
  | .xferResident _ => true
  | .kernelRetire _ => true
  | .tagStateArrival _ => true
  | .throttleWindow cl => decide (cl < 160)
  | .watchdogIntervalEnd core => decide (core < 1280)
  | .deliveryTurn die => decide (die < 4)
  | .repetitionTrap core => decide (core < 1280)
  | .tsuiqCopyComplete port => decide (port < 24)
  | .takeArrival _ => true
  | .putStopArrival pool shard => decide (pool < 64) && decide (shard < 4)
  | .errorFreezeEnd cl => decide (cl < 160)
  | .add _ _ _ _ => true
  | .sub _ _ _ _ => true
  | .and _ _ _ _ => true
  | .or _ _ _ _ => true
  | .xor _ _ _ _ => true
  | .andn _ _ _ _ => true
  | .sll _ _ _ _ => true
  | .srl _ _ _ _ => true
  | .sra _ _ _ _ => true
  | .mul _ _ _ _ => true
  | .mulh _ _ _ _ => true
  | .mulhn _ _ _ _ => true
  | .div _ _ _ _ => true
  | .divn _ _ _ _ => true
  | .rem _ _ _ _ => true
  | .remn _ _ _ _ => true
  | .min _ _ _ _ => true
  | .max _ _ _ _ => true
  | .minn _ _ _ _ => true
  | .maxn _ _ _ _ => true
  | .clz _ _ _ => true
  | .ctz _ _ _ => true
  | .popc _ _ _ => true
  | .clmul _ _ _ _ => true
  | .clmulh _ _ _ _ => true
  | .sh1add _ _ _ _ => true
  | .sh2add _ _ _ _ => true
  | .sh3add _ _ _ _ => true
  | .sh4add _ _ _ _ => true
  | .addi _ _ _ _ => true
  | .muli _ _ _ _ => true
  | .andi _ _ _ _ => true
  | .ori _ _ _ _ => true
  | .xori _ _ _ _ => true
  | .slli _ _ _ _ => true
  | .srli _ _ _ _ => true
  | .srai _ _ _ _ => true
  | .li _ _ _ => true
  | .lsi _ _ _ => true
  | .cmpEq _ _ _ _ => true
  | .cmpNe _ _ _ _ => true
  | .cmpLt _ _ _ _ => true
  | .cmpGe _ _ _ _ => true
  | .cmpLtn _ _ _ _ => true
  | .cmpGen _ _ _ _ => true
  | .cmpiEq _ _ _ _ => true
  | .cmpiNe _ _ _ _ => true
  | .cmpiLt _ _ _ _ => true
  | .cmpiGe _ _ _ _ => true
  | .cmpiLtn _ _ _ _ => true
  | .cmpiGen _ _ _ _ => true
  | .pand _ _ _ _ => true
  | .por _ _ _ _ => true
  | .pxor _ _ _ _ => true
  | .pandn _ _ _ _ => true
  | .pnot _ _ _ => true
  | .pset _ _ _ => true
  | .pget _ _ _ => true
  | .sel _ _ _ _ _ => true
  | .br _ _ => true
  | .call _ _ => true
  | .jr _ _ => true
  | .callr _ _ => true
  | .ret _ => true
  | .detach _ => true
  | .join _ _ _ => true
  | .ldI8 _ _ _ _ _ => true
  | .ldN8 _ _ _ _ _ => true
  | .ldI16 _ _ _ _ _ => true
  | .ldN16 _ _ _ _ _ => true
  | .ldI32 _ _ _ _ _ => true
  | .ldN32 _ _ _ _ _ => true
  | .ldN64 _ _ _ _ _ => true
  | .ldI8W _ _ _ _ _ => true
  | .ldN8W _ _ _ _ _ => true
  | .ldI16W _ _ _ _ _ => true
  | .ldN16W _ _ _ _ _ => true
  | .ldI32W _ _ _ _ _ => true
  | .ldN32W _ _ _ _ _ => true
  | .ldN64W _ _ _ _ _ => true
  | .ldI8Wc _ _ _ _ _ => true
  | .ldN8Wc _ _ _ _ _ => true
  | .ldI16Wc _ _ _ _ _ => true
  | .ldN16Wc _ _ _ _ _ => true
  | .ldI32Wc _ _ _ _ _ => true
  | .ldN32Wc _ _ _ _ _ => true
  | .ldN64Wc _ _ _ _ _ => true
  | .stN8 _ _ _ _ _ => true
  | .stN16 _ _ _ _ _ => true
  | .stN32 _ _ _ _ _ => true
  | .stN64 _ _ _ _ _ => true
  | .stN8Set _ _ _ _ _ => true
  | .stN16Set _ _ _ _ _ => true
  | .stN32Set _ _ _ _ _ => true
  | .stN64Set _ _ _ _ _ => true
  | .stN8Clr _ _ _ _ _ => true
  | .stN16Clr _ _ _ _ _ => true
  | .stN32Clr _ _ _ _ _ => true
  | .stN64Clr _ _ _ _ _ => true
  | .aldN32 _ _ _ _ _ => true
  | .aldN64 _ _ _ _ _ => true
  | .astN32 _ _ _ _ _ => true
  | .astN64 _ _ _ _ _ => true
  | .aaddN32 _ _ _ _ _ => true
  | .aswpN32 _ _ _ _ _ => true
  | .amaxI32 _ _ _ _ _ => true
  | .amaxN32 _ _ _ _ _ => true
  | .aminI32 _ _ _ _ _ => true
  | .aminN32 _ _ _ _ _ => true
  | .aorN32 _ _ _ _ _ => true
  | .acasN32 _ _ _ _ _ => true
  | .aaddN64 _ _ _ _ _ => true
  | .aswpN64 _ _ _ _ _ => true
  | .amaxI64 _ _ _ _ _ => true
  | .amaxN64 _ _ _ _ _ => true
  | .aminI64 _ _ _ _ _ => true
  | .aminN64 _ _ _ _ _ => true
  | .aorN64 _ _ _ _ _ => true
  | .acasN64 _ _ _ _ _ => true
  | .fence _ _ _ => true
  | .fork _ _ => true
  | .rdv _ _ => true
  | .tksig _ _ => true
  | .tkwait _ _ => true
  | .enq _ e _ => decide (1 ≤ e.toNat) && decide (e.toNat ≤ 6)
  | .ksend _ _ _ => true
  | .ipop _ _ _ => true
  | .hset _ _ _ _ => true
  | .hfree _ _ => true
  | .hget _ _ _ _ => true
  | .bexp _ _ _ => true
  | .barr _ _ _ => true
  | .bwait _ _ _ => true
  | .bmset _ _ _ _ => true
  | .bmcopy _ _ _ _ => true
  | .dwait _ _ _ => true
  | .trig _ => true
  | .rtnew _ _ _ _ => true
  | .rtclaim _ _ _ _ => true
  | .done _ _ => true
  | .tmsg _ _ _ => true
  | .trecv _ _ _ _ => true
  | .pput _ _ _ _ => true
  | .pputTry _ _ _ _ _ => true
  | .ptake _ _ _ _ _ => true
  | .ppeek _ _ _ _ _ => true
  | .exit _ => true
  | .hbeat _ => true
  | .swtrap _ _ => true
  | .eret _ => true
  | .getcr _ _ _ _ => true
  | .setcr _ _ _ _ => true
  | .lEnop w => eWf [1, 2] w (okPlain w) .zero
  | .lstrm w x1 x2 x3 => eWf [1, 2] w (okLstrm w x1 x2 x3) .zero
  | .lgathBm w x1 x2 x3 => eWf [1, 2] w (okLgath w x1 x2 x3) .zero
  | .lgathRl w x1 x2 x3 => eWf [1, 2] w (okLgath w x1 x2 x3) .zero
  | .lcbx w x1 _ => eWf [1, 2] w (okLcbx w x1) .zero
  | .lcbtab w x1 => eWf [1, 2] w (okLcbtab w x1) .zero
  | .lpkld w x1 x2 => eWf [1, 2] w (okLpkld w x1 x2) .zero
  | .lbmg w x1 x2 x3 => eWf [1, 2] w (okLbmg w x1 x2 x3) .zero
  | .wSetrm w => eWf [3] w (okPlain w) .set
  | .wEnop w => eWf [3] w (okPlain w) .zero
  | .wstrm w x1 x2 x3 => eWf [3] w (okWstrm w x1 x2 x3) .code
  | .wpkst w x1 x2 => eWf [3] w (okWpkst w x1 x2) .code
  | .wscat w x1 x2 x3 => eWf [3] w (okWscat w x1 x2 x3) .code
  | .mSetrm w => eWf [5] w (okPlain w) .set
  | .mEnop w => eWf [5] w (okPlain w) .zero
  | .mlease w => eWf [5] w (okMlease w) .zero
  | .mrel w => eWf [5] w (okPlain w) .zero
  | .mmul w x1 => eWf [5] w (okMmul w x1) .code
  | .mmul2 w x1 x2 => eWf [5] w (okMmul2 w x1 x2) .code
  | .mdrain w x1 x2 => eWf [5] w (okMdrain w x1 x2) .code
  | .mzero w => eWf [5] w (okMzero w) .zero
  | .cSetrm w => eWf [6] w (okPlain w) .set
  | .cEnop w => eWf [6] w (okPlain w) .zero
  | .ccopy w x1 x2 => eWf [6] w (okCcopy w x1 x2) .code
  | .cwin w x1 x2 x3 => eWf [6] w (okCwin w x1 x2 x3) .zero
  | .cadd w x1 x2 => eWf [6] w (okCadd w x1 x2) .code
  | .caccld w x1 => eWf [6] w (okCacc w x1) .zero
  | .caccst w x1 => eWf [6] w (okCacc w x1) .zero
  | .cexp w x1 => eWf [6] w (okCexp w x1) .zero
  | .carr w x1 => eWf [6] w (okCarr w x1) .zero
  | .fqAckRetry die _ => decide (die < 4)
  | .fqAckSkip die _ => decide (die < 4)
  | .fqAckKill die _ => decide (die < 4)
  | .trInv _ => true
  | .trInvComplete => true
  | .mirNone core => decide (core < 1280)
  | .freeze core => decide (core < 1280)
  | .save core => decide (core < 1280)
  | .imgout core => decide (core < 1280)
  | .imgin core ctx => decide (core < 1280) && decide (ctx < 65536)
  | .load core ctx => decide (core < 1280) && decide (ctx < 65536)
  | .resume core => decide (core < 1280)
  | .discard core => decide (core < 1280)
  | .mirReserved core cmd => decide (core < 1280) && (8 ≤ cmd && cmd < 16)
  | .cpGo cl _ => decide (cl < 160)
  | .streamStart die _ => decide (die < 4)
  | .cmdResume die ctx => decide (die < 4) && decide (ctx < 65536)
  | .correctableError cl => decide (cl < 160)
  | .uncorrectableError kind _ => decide (kind < 4)
  | .stateLost kind _ => decide (kind < 5)
  | .fatalError die _ => decide (die < 4)
  | .dlvDescWrite die _ => decide (die < 4)
  | .sysPartWrite _ => true
  | .tsuiqCopy port _ _ _ _ => decide (port < 24)
  | .pcieBar2Write addr len _ => decide (addr < 2 ^ 38) && decide (len ≤ 512)
  | .powerGood => true
  | .bootStageTimeout => true
  | .sysReadyWrite _ => true
  | .updateWrite _ _ _ => true
  | .sensorSample die _ _ => decide (die < 4)
  | .eventLogTick => true
  | .windowRegisterWrite acc _ => decide (acc < 3 * 2 ^ 29) && decide (acc / 2 ^ 26 % 8 < 6)
  | .contextCreate ctx => decide (ctx < 65536)
  | .poolAllocate pool grant => decide (pool < 64) && decide (grant < 2 ^ 224)
  | .poolFree pool => decide (pool < 64)
  | .scalarWordNotInstruction _ => true
  | .engineWordNotCommand _ => true
  | .systemWriterWrite _ _ len _ => decide (len ≤ 64)
  | .bootStageDone => true
  | .powerDown => true
  | .tsuiqLinkLost port => decide (port < 24)
  | .vSetrm w => vWf fSetrm w
  | .vEnop w => vWf fEnop w
  | .vtos w => vWf (fVtos w) w
  | .vloop w => vWf fVloop w
  | .vdefer w => vWf fVdefer w
  | .vdrain w => vWf fVdrain w
  | .vsel w => vWf fVsel w
  | .vmand w => vWf fMask2 w
  | .vmor w => vWf fMask2 w
  | .vmxor w => vWf fMask2 w
  | .vmandn w => vWf fMask2 w
  | .vmnot w => vWf fMask1 w
  | .vmpop w => vWf fMpop w
  | .vaddI32 w => vWf fBin w
  | .vsubI32 w => vWf fBin w
  | .vmulI32 w => vWf fBin w
  | .vmulhI32 w => vWf fBin w
  | .vmulhN32 w => vWf fBin w
  | .vdivI32 w => vWf fBin w
  | .vdivN32 w => vWf fBin w
  | .vminI32 w => vWf fBin w
  | .vmaxI32 w => vWf fBin w
  | .vminN32 w => vWf fBin w
  | .vmaxN32 w => vWf fBin w
  | .vaddsI32 w => vWf fBin w
  | .vand w => vWf fBin w
  | .vor w => vWf fBin w
  | .vxor w => vWf fBin w
  | .vandn w => vWf fBin w
  | .vsll w => vWf fBin w
  | .vsrl w => vWf fBin w
  | .vsra w => vWf fBin w
  | .vclz w => vWf fUn w
  | .vclmul w => vWf fBin w
  | .vclmulh w => vWf fBin w
  | .vaddF32 w => vWf fBinR w
  | .vsubF32 w => vWf fBinR w
  | .vmulF32 w => vWf fBinR w
  | .vfmaF32 w => vWf fTerR w
  | .vfmsF32 w => vWf fTerR w
  | .vdivF32 w => vWf fBinR w
  | .vsqrtF32 w => vWf fUnR w
  | .vminF32 w => vWf fBin w
  | .vmaxF32 w => vWf fBin w
  | .vabsF32 w => vWf fUn w
  | .vnegF32 w => vWf fUn w
  | .vexp2F32 w => vWf fUnR w
  | .vcmpEqI32 w => vWf fCmp w
  | .vcmpLtI32 w => vWf fCmp w
  | .vcmpLeI32 w => vWf fCmp w
  | .vcmpLtN32 w => vWf fCmp w
  | .vcmpEqF32 w => vWf fCmp w
  | .vcmpLtF32 w => vWf fCmp w
  | .vcmpLeF32 w => vWf fCmp w
  | .vcmpUnF32 w => vWf fCmp w
  | .vcvtF32I32 w => vWf fUnR w
  | .vcvtI32F32 w => vWf fUnR w
  | .vcvtF32F16 w => vWf fUn w
  | .vcvtF32Bf16 w => vWf fUn w
  | .vcvtF16F32 w => vWf fUnR w
  | .vcvtBf16F32 w => vWf fUnR w
  | .vnarrow w => vWf (fNarrow w) w
  | .vwiden w => vWf fWiden w
  | .vperm w => vWf fBin w
  | .vslideup w => vWf fSlide w
  | .vslidedn w => vWf fSlide w
  | .vbcast w => vWf fBcast w
  | .vmov w => vWf fMov w
  | .vredaddF32 w => vWf fRedF32 w
  | .vredaddF64 w => vWf fRedF64 w
  | .vredmaxF32 w => vWf fRedMax w
  | .vredaddI32 w => vWf fRedI32 w
  | .vtopk w => vWf fTopk w
  | .rcinitD w => vWf fRcinitD w
  | .rcinitE w => vWf fRcinitE w && w.mod = 1
  | .rcfin w => vWf fRcfin w
  | .rcstat w => vWf fRcstat w
  | .rcdec w => vWf fRcdec w
  | .rcdecm w => vWf (fRcdecm w) w
  | .rcenc w => vWf fRcenc w
  | .rcencm w => vWf (fRcencm w) w
  | .rckpt w => vWf fCkpt w
  | .rcroll w => vWf fCkpt w
  | .qsq w => vWf fQun w
  | .qmov w => vWf fQun w
  | .qadapt w => vWf fQadapt w
  | .cdfsw w => vWf fCdfsw w

end Sys2Proof
end

