-- ==== Sys2Proof/Safety.lean ====
section
/-! DEFINITION. What the statements say of states: the canonical forms, what an instruction leaves alone, when a step completes,
and what a safe run is. -/
namespace Sys2Proof.Machine

/-- The canonical form of memory (log entry 1). -/
def State.memOk (s : State) : Prop := Memory.wf s.mem = true

/-- A step that ends in a next state. -/
def completes (i : Instr) (s : State) : Prop := ∃ t, exec i s = .next t

/-- An instruction ends in a next state of which P holds. -/
def answers (i : Instr) (s : State) (P : State → Prop) : Prop := ∃ t, exec i s = .next t ∧ P t

/-- A run is safe while its steps answer next states: the manual's own faults are next states. -/
def safe : Nat → State → Prop
  | 0, _ => True
  | n + 1, s => ∃ t, step s = .next t ∧ safe n t

/-! ### What a scalar instruction leaves alone -/

/-- Every byte of memory reads as before. -/
def sameMemory (s t : State) : Prop := ∀ a, memByte t.mem a = memByte s.mem a
/-- Every byte outside n bytes from an address reads as before. -/
def sameMemoryBut (a n : Nat) (s t : State) : Prop := ∀ x, x < a ∨ a + n ≤ x → memByte t.mem x = memByte s.mem x

/-- Outside S, the instruction buffer and the watchdog marks of one core nothing changes: not memory, no other core, no engine,
vector or coder register, queue, context, cluster or special register. -/
def onlyS (c : Nat) (s t : State) : Prop :=
  t = s.setCore c { s.core c with su := (t.core c).su, pr := (t.core c).pr, wd := (t.core c).wd }

/-- The parts of S that hold traps and return addresses. -/
def sameControl (u v : SUnit) : Prop :=
  v.ras = u.ras ∧ v.rspill = u.rspill ∧ v.epc = u.epc ∧ v.cause = u.cause ∧ v.inh = u.inh ∧ v.triggered = u.triggered ∧ v.pend = u.pend

/-- Every scalar register holds what it held, but for one. -/
def sameRegsBut (d : Nat) (u v : SUnit) : Prop := ∀ r, r ≠ d → v.reg r = u.reg r
def sameRegs (u v : SUnit) : Prop := ∀ r, v.reg r = u.reg r
/-- Every predicate holds what it held, but for one. -/
def samePredsBut (n : Nat) (u v : SUnit) : Prop := ∀ r, r < 8 → r ≠ n → v.pred r = u.pred r
def samePreds (u v : SUnit) : Prop := ∀ r, r < 8 → v.pred r = u.pred r

/-- The instruction that a bound core has issued leaves its buffer; on a detached core the binding state stays (R126). -/
def issued (p : PrismCore) : PrismCore := if p.bound then { p with ibuf := p.ibuf.drop 1 } else p

/-- S goes on to an address: what a scalar instruction without a trap leaves beside its results (R173). -/
def movesTo (pc : W64) (s t : State) : Prop :=
  onlyS s.cur.1 s t ∧ sameMemory s t ∧ t.me.pr = issued s.me.pr ∧ t.me.su.pc = pc ∧ t.me.su.wait = .idle

/-- One register result and no other effect; a result for s0 is discarded (R172). -/
def writesReg (d : BitVec 5) (v : W64) (s t : State) : Prop :=
  movesTo (s.me.su.pc + 4) s t ∧ sameControl s.me.su t.me.su ∧ samePreds s.me.su t.me.su ∧ sameRegsBut d.toNat s.me.su t.me.su ∧
    t.me.su.reg d.toNat = if d = 0 then 0 else v

/-- One predicate result and no other effect; a result for p0 is discarded (R172). -/
def writesPred (n : BitVec 3) (v : Bool) (s t : State) : Prop :=
  movesTo (s.me.su.pc + 4) s t ∧ sameControl s.me.su t.me.su ∧ sameRegs s.me.su t.me.su ∧ samePredsBut n.toNat s.me.su t.me.su ∧
    t.me.su.pred n.toNat = if n = 0 then true else v

/-- No effect but the move to an address. -/
def writesNothing (pc : W64) (s t : State) : Prop :=
  movesTo pc s t ∧ sameControl s.me.su t.me.su ∧ sameRegs s.me.su t.me.su ∧ samePreds s.me.su t.me.su

/-! ### Scalar instructions whose effect reaches further than S -/

/-- S has gone on to the next instruction; its own trap and return registers, and the binding of its core, are as they were. -/
def advances (s t : State) : Prop :=
  t.cur = s.cur ∧ t.me.su.pc = s.me.su.pc + 4 ∧ t.me.su.wait = .idle ∧ sameControl s.me.su t.me.su ∧ t.me.pr = issued s.me.pr

/-- It has gone on without a result in a register, a predicate or memory. -/
def advancesQuietly (s t : State) : Prop := advances s t ∧ sameMemory s t ∧ sameRegs s.me.su t.me.su ∧ samePreds s.me.su t.me.su

/-- It has gone on with results in at most two registers. -/
def advancesWith (d a : BitVec 5) (s t : State) : Prop :=
  advances s t ∧ ∀ r, r ≠ d.toNat → r ≠ a.toNat → t.me.su.reg r = s.me.su.reg r

/-- A result as a register then reads: s0 reads zero. -/
def reads (d : BitVec 5) (v : W64) (t : State) : Prop := t.me.su.reg d.toNat = if d = 0 then 0 else v
def readsPred (p : BitVec 3) (v : Bool) (t : State) : Prop := t.me.su.pred p.toNat = if p = 0 then true else v

/-- S waits at the instruction, for what w says; nothing else has changed but what S notes of itself (R174). -/
def waitsFor (w : SWait) (s t : State) : Prop :=
  onlyS s.cur.1 s t ∧ sameMemory s t ∧ t.me.su.wait = w ∧ t.me.su.pc = s.me.su.pc ∧ sameControl s.me.su t.me.su ∧
    sameRegs s.me.su t.me.su ∧ samePreds s.me.su t.me.su
/-- S waits at the instruction, which is tried again. -/
def waits (s t : State) : Prop := waitsFor .stalled s t

/-! ### Traps (R322, R361) -/

/-- The strand's handler begins: CTX.EPC, CTX.CAUSE with its SWCODE, INH, and the pc at CTX.TVEC; the core is detached. -/
def entersHandler (cause sw : Nat) (s t : State) : Prop :=
  onlyS s.cur.1 s t ∧ sameMemory s t ∧ sameRegs s.me.su t.me.su ∧ samePreds s.me.su t.me.su ∧
    t.me.su.epc = s.me.su.pc ∧ t.me.su.cause = BitVec.ofNat 64 (sw * 2 ^ 32 + cause) ∧ t.me.su.inh = true ∧
    t.me.su.pc = (s.ctxOf s.cur.1).tvec ∧ t.me.su.wait = .idle ∧ t.me.pr.bound = false ∧ t.me.su.ras = s.me.su.ras ∧ t.me.su.rspill = s.me.su.rspill

/-- The trap goes to system software: its record waits to be written, and S waits at the instruction; the core is detached. That ADDR is the pc, for address and
object traps too, is the model's choice (log entry 28) among what R362 allows. -/
def reportsTrap (cause : Nat) (s t : State) : Prop :=
  sameMemory s t ∧ t.cur = s.cur ∧ sameRegs s.me.su t.me.su ∧ samePreds s.me.su t.me.su ∧ t.me.su.pc = s.me.su.pc ∧
    sameControl s.me.su t.me.su ∧ t.me.su.wait = .reporting ∧ t.me.pr.bound = false ∧
    ∃ r : FRec, (t.die (dieOf s.cur.1)).queue = (s.die (dieOf s.cur.1)).queue ++ [r] ∧ r.cause = cause ∧ r.kind = 0 ∧
      r.core = s.cur.1 ∧ r.ctx = s.me.ctx ∧ r.addr = s.me.su.pc

/-- A trap of S (R322, R361). -/
def traps (cause sw : Nat) (s t : State) : Prop :=
  if (s.ctxOf s.cur.1).tven = true ∧ s.me.su.inh = false then entersHandler cause sw s t else reportsTrap cause s t

/-! ### Accesses of S -/

/-- An access of w bytes by S at an address reaches a physical place with nothing in its way: it is translated (or in a window), no
watermark stalls it, nothing there is poisoned, and no other unit's unseen write is recorded in its sector (R90, R114, R357, R367). -/
def reaches (s : State) (va w : Nat) (write : Bool) (pa : Nat) : Prop :=
  (∃ p t, place s (whoS s s.cur.1) va write false = .ok p t ∧ p.pa = pa) ∧ watermarkStall s (whoS s s.cur.1) pa w = false ∧
    rangePoisoned s pa w = false ∧ mapFind (pa / 64) s.shadow = none

/-- The cluster cache holds no line of its own for an address: a read then gives what memory holds (R104). -/
def uncached (s : State) (pa : Nat) : Prop := mapFind (pa / 64) (s.cluster (clusterOf s.cur.1)).cache = none

/-- The full-empty bit of the granule at a physical address (R75). -/
def fullAt (s : State) (pa : Nat) : Bool := isFull s (pa / 16)

end Sys2Proof.Machine
end

