-- ==== Sys2Proof/Certificates/Slice0/Obligations.lean ====
section
/-! DEFINITION. The statements for the provers. Each formalises numbered rules of the manual, or is derived from its sections; the docstrings say which. -/

section
open Sys2Proof Sys2Proof.Machine

namespace Sys2Proof.Claims

/-! ### The integer instructions (R176 to R178) -/

/-- The exact carry-less product (R176), as a sum over the bits of b. -/
def carryless (a b : W64) : BitVec 128 :=
  (List.range 64).foldl (fun p t => if b.getLsbD t then p ^^^ (a.setWidth 128 <<< t) else p) 0

/-- The register forms, with what R176 says they compute. -/
def registerForms (g : BitVec 3) (d a b : BitVec 5) : List (Instr × (W64 → W64 → W64)) :=
  [(.add g d a b, fun x y => x + y), (.sub g d a b, fun x y => x - y), (.and g d a b, fun x y => x &&& y),
   (.or g d a b, fun x y => x ||| y), (.xor g d a b, fun x y => x ^^^ y), (.andn g d a b, fun x y => x &&& ~~~y),
   (.sll g d a b, fun x y => x <<< (y.toNat % 64)), (.srl g d a b, fun x y => x >>> (y.toNat % 64)),
   (.sra g d a b, fun x y => x.sshiftRight (y.toNat % 64)), (.mul g d a b, fun x y => x * y),
   (.mulh g d a b, fun x y => (x.signExtend 128 * y.signExtend 128).extractLsb' 64 64),
   (.mulhn g d a b, fun x y => (x.setWidth 128 * y.setWidth 128).extractLsb' 64 64),
   (.min g d a b, fun x y => if y.toInt < x.toInt then y else x), (.max g d a b, fun x y => if x.toInt < y.toInt then y else x),
   (.minn g d a b, fun x y => if y.toNat < x.toNat then y else x), (.maxn g d a b, fun x y => if x.toNat < y.toNat then y else x),
   (.clmul g d a b, fun x y => (carryless x y).extractLsb' 0 64), (.clmulh g d a b, fun x y => (carryless x y).extractLsb' 64 64),
   (.sh1add g d a b, fun x y => (x <<< 1) + y), (.sh2add g d a b, fun x y => (x <<< 2) + y),
   (.sh3add g d a b, fun x y => (x <<< 3) + y), (.sh4add g d a b, fun x y => (x <<< 4) + y)]

/-- The quotients and remainders as R176 defines them. -/
def divisionForms (g : BitVec 3) (d a b : BitVec 5) : List (Instr × (W64 → W64 → W64)) :=
  [(.div g d a b, fun x y => if y = 0 then -1 else if x.toInt = -(2 ^ 63) ∧ y = -1 then x else BitVec.ofInt 64 (x.toInt.tdiv y.toInt)),
   (.rem g d a b, fun x y => if y = 0 then x else if x.toInt = -(2 ^ 63) ∧ y = -1 then 0 else BitVec.ofInt 64 (x.toInt - x.toInt.tdiv y.toInt * y.toInt)),
   (.divn g d a b, fun x y => if y = 0 then -1 else BitVec.ofNat 64 (x.toNat / y.toNat)),
   (.remn g d a b, fun x y => if y = 0 then x else BitVec.ofNat 64 (x.toNat - x.toNat / y.toNat * y.toNat))]

end Sys2Proof.Claims
open Sys2Proof.Claims

/-- R176: the integer instructions write their result to rd, which s0 discards, and change nothing else: the register forms, division with its zero
divisor and its one overflow among them; leading zeros, trailing zeros and set bits, each by the bits of the operand; and the immediate forms, with
the extension that R157 gives each immediate. -/
def Obligations.IntegerResults : Prop :=
  ∀ (s : State) (g : BitVec 3) (d a b : BitVec 5) (i : BitVec 12) (n : BitVec 6) (l : BitVec 17), s.pred g = true →
    (∀ e ∈ registerForms g d a b ++ divisionForms g d a b, answers e.1 s (writesReg d (e.2 (s.x a) (s.x b)) s)) ∧
    (∃ n : Nat, answers (.clz g d a) s (writesReg d (BitVec.ofNat 64 n) s) ∧ n ≤ 64 ∧ (s.x a).toNat < 2 ^ (64 - n) ∧ (n < 64 → (s.x a).getLsbD (63 - n) = true)) ∧
    (∃ n : Nat, answers (.ctz g d a) s (writesReg d (BitVec.ofNat 64 n) s) ∧ n ≤ 64 ∧ (∀ j, j < n → (s.x a).getLsbD j = false) ∧ (n < 64 → (s.x a).getLsbD n = true)) ∧
    answers (.popc g d a) s (writesReg d (BitVec.ofNat 64 ((List.range 64).countP fun j => (s.x a).getLsbD j)) s) ∧
    answers (.addi g d a i) s (writesReg d (s.x a + i.signExtend 64) s) ∧
    answers (.muli g d a i) s (writesReg d (s.x a * i.signExtend 64) s) ∧
    answers (.andi g d a i) s (writesReg d (s.x a &&& i.setWidth 64) s) ∧
    answers (.ori g d a i) s (writesReg d (s.x a ||| i.setWidth 64) s) ∧
    answers (.xori g d a i) s (writesReg d (s.x a ^^^ i.setWidth 64) s) ∧
    answers (.slli g d a n) s (writesReg d (s.x a <<< n.toNat) s) ∧
    answers (.srli g d a n) s (writesReg d (s.x a >>> n.toNat) s) ∧
    answers (.srai g d a n) s (writesReg d ((s.x a).sshiftRight n.toNat) s) ∧
    answers (.li g d l) s (writesReg d (l.signExtend 64) s) ∧
    answers (.lsi g d l) s (writesReg d ((s.x d <<< 17) ||| l.setWidth 64) s)

/-- R177, R178: the compares write pd, signed for lt and ge and unsigned for ltn and gen (cmpi sign-extends its immediate in every case); the predicate
group and sel. -/
def Obligations.CompareAndPredicateResults : Prop :=
  ∀ (s : State) (g p q r : BitVec 3) (d a b : BitVec 5) (i : BitVec 12), s.pred g = true →
    let x := s.x a
    let y := s.x b
    let z := i.signExtend 64
    answers (.cmpEq g p a b) s (writesPred p (decide (x = y)) s) ∧ answers (.cmpNe g p a b) s (writesPred p (decide (x ≠ y)) s) ∧
    answers (.cmpLt g p a b) s (writesPred p (decide (x.toInt < y.toInt)) s) ∧ answers (.cmpGe g p a b) s (writesPred p (decide (y.toInt ≤ x.toInt)) s) ∧
    answers (.cmpLtn g p a b) s (writesPred p (decide (x.toNat < y.toNat)) s) ∧ answers (.cmpGen g p a b) s (writesPred p (decide (y.toNat ≤ x.toNat)) s) ∧
    answers (.cmpiEq g p a i) s (writesPred p (decide (x = z)) s) ∧ answers (.cmpiNe g p a i) s (writesPred p (decide (x ≠ z)) s) ∧
    answers (.cmpiLt g p a i) s (writesPred p (decide (x.toInt < z.toInt)) s) ∧ answers (.cmpiGe g p a i) s (writesPred p (decide (z.toInt ≤ x.toInt)) s) ∧
    answers (.cmpiLtn g p a i) s (writesPred p (decide (x.toNat < z.toNat)) s) ∧ answers (.cmpiGen g p a i) s (writesPred p (decide (z.toNat ≤ x.toNat)) s) ∧
    answers (.pand g p q r) s (writesPred p (s.pred q && s.pred r) s) ∧ answers (.por g p q r) s (writesPred p (s.pred q || s.pred r) s) ∧
    answers (.pxor g p q r) s (writesPred p (s.pred q != s.pred r) s) ∧ answers (.pandn g p q r) s (writesPred p (s.pred q && !s.pred r) s) ∧
    answers (.pnot g p q) s (writesPred p (!s.pred q) s) ∧ answers (.pset g p a) s (writesPred p (decide (s.x a ≠ 0)) s) ∧
    answers (.pget g d q) s (writesReg d (if s.pred q then 1 else 0) s) ∧ answers (.sel g d a b p) s (writesReg d (if s.pred p then s.x a else s.x b) s)

/-! ### Control transfers (R129, R179, R180) and traps (R322, R323) -/

namespace Sys2Proof.Claims

/-- The integer group. -/
def integerGroup (g : BitVec 3) (d a b : BitVec 5) (i : BitVec 12) (n : BitVec 6) (l : BitVec 17) : List Instr :=
  [.add g d a b, .sub g d a b, .and g d a b, .or g d a b, .xor g d a b, .andn g d a b, .sll g d a b, .srl g d a b, .sra g d a b, .mul g d a b, .mulh g d a b,
    .mulhn g d a b, .div g d a b, .divn g d a b, .rem g d a b, .remn g d a b, .min g d a b, .max g d a b, .minn g d a b, .maxn g d a b, .clz g d a, .ctz g d a,
    .popc g d a, .clmul g d a b, .clmulh g d a b, .sh1add g d a b, .sh2add g d a b, .sh3add g d a b, .sh4add g d a b, .addi g d a i, .muli g d a i, .andi g d a i,
    .ori g d a i, .xori g d a i, .slli g d a n, .srli g d a n, .srai g d a n, .li g d l, .lsi g d l]
/-- The compare and predicate groups. -/
def compareGroup (g p q r : BitVec 3) (d a b : BitVec 5) (i : BitVec 12) : List Instr :=
  [.cmpEq g p a b, .cmpNe g p a b, .cmpLt g p a b, .cmpGe g p a b, .cmpLtn g p a b, .cmpGen g p a b, .cmpiEq g p a i, .cmpiNe g p a i, .cmpiLt g p a i, .cmpiGe g p a i,
    .cmpiLtn g p a i, .cmpiGen g p a i, .pand g p q r, .por g p q r, .pxor g p q r, .pandn g p q r, .pnot g p q, .pset g p a, .pget g d q, .sel g d a b p]
/-- The loads and stores. -/
def accessGroup (g : BitVec 3) (d a : BitVec 5) (c : BitVec 4) (o : BitVec 8) : List Instr :=
  [.ldI8 g d a c o, .ldN8 g d a c o, .ldI16 g d a c o, .ldN16 g d a c o, .ldI32 g d a c o, .ldN32 g d a c o, .ldN64 g d a c o, .ldI8W g d a c o, .ldN8W g d a c o,
    .ldI16W g d a c o, .ldN16W g d a c o, .ldI32W g d a c o, .ldN32W g d a c o, .ldN64W g d a c o, .ldI8Wc g d a c o, .ldN8Wc g d a c o, .ldI16Wc g d a c o,
    .ldN16Wc g d a c o, .ldI32Wc g d a c o, .ldN32Wc g d a c o, .ldN64Wc g d a c o, .stN8 g d a c o, .stN16 g d a c o, .stN32 g d a c o, .stN64 g d a c o,
    .stN8Set g d a c o, .stN16Set g d a c o, .stN32Set g d a c o, .stN64Set g d a c o, .stN8Clr g d a c o, .stN16Clr g d a c o, .stN32Clr g d a c o, .stN64Clr g d a c o]
/-- The atomics. -/
def atomicGroup (g : BitVec 3) (d a b : BitVec 5) (c : BitVec 4) (o : BitVec 8) : List Instr :=
  [.aldN32 g d a c o, .aldN64 g d a c o, .astN32 g d a c o, .astN64 g d a c o, .aaddN32 g d a b c, .aswpN32 g d a b c, .amaxI32 g d a b c, .amaxN32 g d a b c,
    .aminI32 g d a b c, .aminN32 g d a b c, .aorN32 g d a b c, .acasN32 g d a b c, .aaddN64 g d a b c, .aswpN64 g d a b c, .amaxI64 g d a b c, .amaxN64 g d a b c,
    .aminI64 g d a b c, .aminN64 g d a b c, .aorN64 g d a b c, .acasN64 g d a b c]
/-- The engine, object, task, pool and system instructions. -/
def systemGroup (g p : BitVec 3) (d a b : BitVec 5) (c : BitVec 4) (n : BitVec 6) (m : BitVec 16) : List Instr :=
  [.fence g p m, .fork g n, .rdv g n, .tksig g p, .tkwait g p, .enq g d b, .ksend g c b, .ipop g d a, .hset g d a b, .hfree g a, .hget g d a b, .bexp g a b, .barr g d a,
    .bwait g a b, .bmset g d a b, .bmcopy g d a b, .dwait g d p, .trig g, .rtnew g d a b, .rtclaim g d a p, .done g a, .tmsg g a b, .trecv g d a p, .pput g d a b,
    .pputTry g d a b p, .ptake g d a b p, .ppeek g d a b p, .exit g, .hbeat g, .swtrap g m]
/-- The control transfers that are voting points on a bound core (R129), but br. -/
def votingGroup (g p : BitVec 3) (a : BitVec 5) (f : BitVec 22) (t : BitVec 13) : List Instr :=
  [.call g f, .jr g a, .callr g a, .ret g, .detach g, .join g p t, .eret g]

end Sys2Proof.Claims

/-- R173: an instruction whose guard is false only goes on to the next one. Every scalar constructor with a guard is named: all but the control transfers in every
state, the control transfers on a detached core (on a bound one they are voting points, R129; br has its own statement), getcr and setcr where their number decodes,
which R163 asks for whatever the guard holds. -/
def Obligations.FalseGuardHasNoEffect : Prop :=
  ∀ (s : State) (g p q r : BitVec 3) (d a b : BitVec 5) (i : BitVec 12) (o : BitVec 8) (c : BitVec 4) (n : BitVec 6) (l : BitVec 17) (m : BitVec 16) (f : BitVec 22) (t : BitVec 13),
    s.pred g = false →
      let passes (k : Instr) : Prop := answers k s (writesNothing (s.me.su.pc + 4) s)
      (∀ k ∈ integerGroup g d a b i n l ++ compareGroup g p q r d a b i ++ accessGroup g d a c o ++ atomicGroup g d a b c o ++ systemGroup g p d a b c n m, passes k) ∧
      (s.me.pr.bound = false → ∀ k ∈ votingGroup g p a f t, passes k) ∧
      (crDecode s s.cur.1 i.toNat a false = none → passes (.getcr g d a i)) ∧ (crDecode s s.cur.1 i.toNat a true = none → passes (.setcr g d a i))

/-- R179: a branch that is no voting point goes to PC + 4 off22 when its guard is true, and on to PC + 4 when it is false. A backward
branch can park the strand (R182), so the first clause is of a branch that is forward, or the first one taken. -/
def Obligations.BranchTarget : Prop :=
  ∀ (s : State) (g : BitVec 3) (o : BitVec 22), (s.me.pr.bound = false ∨ g = 0) →
    (s.pred g = true → (o.msb = false ∨ s.me.su.spin.valid = false) → answers (.br g o) s (writesNothing (s.me.su.pc + 4 * o.signExtend 64) s)) ∧
    (s.pred g = false → answers (.br g o) s (writesNothing (s.me.su.pc + 4) s))

/-- R179, R180: call and callr push PC + 4, ret pops the newest address and traps with 0x05 when there is none, jr and callr go to the address
in the register; one outside every window traps with 0x10, a misaligned one with 0x0D. -/
def Obligations.CallAndReturn : Prop :=
  ∀ (s : State) (g : BitVec 3) (o : BitVec 22) (a : BitVec 5), s.pred g = true → s.me.pr.bound = false →
    let goes (i : Instr) (pc : W64) (ras : List W64) : Prop :=
      answers i s fun t => movesTo pc s t ∧ sameRegs s.me.su t.me.su ∧ samePreds s.me.su t.me.su ∧ t.me.su.ras = ras ∧ t.me.su.rspill = s.me.su.rspill ∧
        t.me.su.epc = s.me.su.epc ∧ t.me.su.cause = s.me.su.cause ∧ t.me.su.inh = s.me.su.inh
    let good := spaceOf (s.x a).toNat ≠ none ∧ (s.x a).toNat % 4 = 0
    (s.me.su.ras.length < 16 → goes (.call g o) (s.me.su.pc + 4 * o.signExtend 64) (s.me.su.ras ++ [s.me.su.pc + 4])) ∧
    (good → goes (.jr g a) (s.x a) s.me.su.ras) ∧
    (good → s.me.su.ras.length < 16 → goes (.callr g a) (s.x a) (s.me.su.ras ++ [s.me.su.pc + 4])) ∧
    (∀ (l : List W64) (x : W64), s.me.su.ras = l ++ [x] → goes (.ret g) x l) ∧
    (s.me.su.ras = [] → s.me.su.rspill.toNat / 2 ^ 52 = 0 → answers (.ret g) s (traps 0x05 0 s)) ∧
    (∀ k ∈ [Instr.jr g a, .callr g a], (spaceOf (s.x a).toNat = none → answers k s (traps 0x10 0 s)) ∧
      (spaceOf (s.x a).toNat ≠ none → (s.x a).toNat % 4 ≠ 0 → answers k s (traps 0x0D 0 s)))

/-- R129, R132, R133, R179, R180, R323: on a bound core a voting point leaves S waiting for the vote, with its next address in it; what it does to the return addresses, or an eret to INH, is
done by then. -/
def Obligations.VotingPointsVote : Prop :=
  ∀ (s : State) (g p : BitVec 3) (o : BitVec 22) (a : BitVec 5) (n : BitVec 13), s.me.pr.bound = true →
    let votesWith (i : Instr) (next : W64) (leaves join guard : Bool) (ras : List W64) (inh : Bool) : Prop :=
      answers i s fun t => t.cur = s.cur ∧ sameMemory s t ∧ sameRegs s.me.su t.me.su ∧ samePreds s.me.su t.me.su ∧ t.me.su.wait = .vote ∧ t.me.pr.bound = true ∧ t.me.su.ras = ras ∧ t.me.su.inh = inh ∧
        ∃ v : Vote, t.me.pr.vote = some v ∧ v.next = next ∧ v.leaves = leaves ∧ v.join = join ∧ v.guard = guard
    let votes (i : Instr) (next : W64) (leaves join guard : Bool) : Prop := votesWith i next leaves join guard s.me.su.ras s.me.su.inh
    let good := spaceOf (s.x a).toNat ≠ none ∧ (s.x a).toNat % 4 = 0
    (g ≠ 0 → votes (.br g o) (if s.pred g then s.me.su.pc + 4 * o.signExtend 64 else s.me.su.pc + 4) false false (s.pred g)) ∧
    (s.pred g = false → ∀ i ∈ [Instr.call g o, .jr g a, .callr g a, .ret g, .eret g], g ≠ 0 → votes i (s.me.su.pc + 4) false false false) ∧
    (s.pred g = true → good → votes (.jr g a) (s.x a) false false true) ∧
    (s.pred g = true → g ≠ 0 → s.me.su.ras.length < 16 → votesWith (.call g o) (s.me.su.pc + 4 * o.signExtend 64) false false true (s.me.su.ras ++ [s.me.su.pc + 4]) s.me.su.inh) ∧
    (s.pred g = true → good → s.me.su.ras.length < 16 → votesWith (.callr g a) (s.x a) false false true (s.me.su.ras ++ [s.me.su.pc + 4]) s.me.su.inh) ∧
    (s.pred g = true → ∀ (l : List W64) (x : W64), s.me.su.ras = l ++ [x] → votesWith (.ret g) x false false true l s.me.su.inh) ∧
    (s.pred g = true → s.me.su.inh = true → votesWith (.eret g) s.me.su.epc false false true s.me.su.ras false) ∧
    votes (.detach g) (s.me.su.pc + 4) (s.pred g) false (s.pred g) ∧
    votes (.join g p n) (s.me.su.pc + 4) false true (s.pred g)

/-- R132 to R134: on a detached core detach has no effect, and join parks the core unless it is late, when it answers false at once. -/
def Obligations.DetachedDetachAndJoin : Prop :=
  ∀ (s : State) (g p : BitVec 3) (n : BitVec 13), s.me.pr.bound = false → s.pred g = true →
    answers (.detach g) s (writesNothing (s.me.su.pc + 4) s) ∧
    (joinLate s s.cur.1 s.me.su.pc = true → answers (.join g p n) s (writesPred p false s)) ∧
    (joinLate s s.cur.1 s.me.su.pc = false → answers (.join g p n) s fun t =>
      t.cur = s.cur ∧ sameMemory s t ∧ sameRegs s.me.su t.me.su ∧ samePreds s.me.su t.me.su ∧ t.me.su.pc = s.me.su.pc ∧
        t.me.su.wait = .join s.me.su.pc.toNat ∧ t.me.pr.parked = true ∧ t.me.pr.joinPd = p)

/-- R206, R322, R323: swtrap raises trap 0x0C with its code; with TVEN set and INH clear the strand's handler runs, else system software is told.
eret clears INH and continues at CTX.EPC; with INH clear it traps with cause 0x0B. -/
def Obligations.TrapEntryAndReturn : Prop :=
  ∀ (s : State) (g : BitVec 3) (n : BitVec 16), s.pred g = true →
    answers (.swtrap g n) s (traps 0x0C n.toNat s) ∧
    (s.me.pr.bound = false → s.me.su.inh = true → answers (.eret g) s fun t =>
      movesTo s.me.su.epc s t ∧ sameRegs s.me.su t.me.su ∧ samePreds s.me.su t.me.su ∧ t.me.su.inh = false ∧ t.me.su.epc = s.me.su.epc ∧
        t.me.su.cause = s.me.su.cause ∧ t.me.su.ras = s.me.su.ras ∧ t.me.su.rspill = s.me.su.rspill) ∧
    (s.me.pr.bound = false → s.me.su.inh = false → answers (.eret g) s (traps 0x0B 0 s))

/-! ### Loads, stores and atomics (R75, R76, R183 to R185) -/

namespace Sys2Proof.Claims

/-- The address of a MEM form (R157): s[ra] + off8 times the width. -/
def memAt (s : State) (a : BitVec 5) (o : BitVec 8) (w : Nat) : Nat := (s.x a + BitVec.ofNat 64 (o.toNat * w)).toNat

/-- A loaded number in a register: sign-extended for the i forms, zero-extended for the n forms (R183). -/
def loaded (signed : Bool) (w n : Nat) : W64 := if signed then (BitVec.ofNat (8 * w) n).signExtend 64 else BitVec.ofNat 64 n

/-- The load forms of a width: qualifier (0 none, 1 .w, 2 .wc), whether signed, width in bytes. -/
def loadForms (g : BitVec 3) (d a : BitVec 5) (c : BitVec 4) (o : BitVec 8) : List (Instr × Nat × Bool × Nat) :=
  [(.ldI8 g d a c o, 0, true, 1), (.ldN8 g d a c o, 0, false, 1), (.ldI16 g d a c o, 0, true, 2), (.ldN16 g d a c o, 0, false, 2),
   (.ldI32 g d a c o, 0, true, 4), (.ldN32 g d a c o, 0, false, 4), (.ldN64 g d a c o, 0, false, 8),
   (.ldI8W g d a c o, 1, true, 1), (.ldN8W g d a c o, 1, false, 1), (.ldI16W g d a c o, 1, true, 2), (.ldN16W g d a c o, 1, false, 2),
   (.ldI32W g d a c o, 1, true, 4), (.ldN32W g d a c o, 1, false, 4), (.ldN64W g d a c o, 1, false, 8),
   (.ldI8Wc g d a c o, 2, true, 1), (.ldN8Wc g d a c o, 2, false, 1), (.ldI16Wc g d a c o, 2, true, 2), (.ldN16Wc g d a c o, 2, false, 2),
   (.ldI32Wc g d a c o, 2, true, 4), (.ldN32Wc g d a c o, 2, false, 4), (.ldN64Wc g d a c o, 2, false, 8)]

/-- The store forms: qualifier (0 none, 1 .set, 2 .clr) and width. -/
def storeForms (g : BitVec 3) (d a : BitVec 5) (c : BitVec 4) (o : BitVec 8) : List (Instr × Nat × Nat) :=
  [(.stN8 g d a c o, 0, 1), (.stN16 g d a c o, 0, 2), (.stN32 g d a c o, 0, 4), (.stN64 g d a c o, 0, 8),
   (.stN8Set g d a c o, 1, 1), (.stN16Set g d a c o, 1, 2), (.stN32Set g d a c o, 1, 4), (.stN64Set g d a c o, 1, 8),
   (.stN8Clr g d a c o, 2, 1), (.stN16Clr g d a c o, 2, 2), (.stN32Clr g d a c o, 2, 4), (.stN64Clr g d a c o, 2, 8)]

/-- The read-modify-write forms: width, and the new value from the old value, the operand and rd, as R185 gives it. -/
def atomicForms (g : BitVec 3) (d a b : BitVec 5) (c : BitVec 4) : List (Instr × (w : Nat) × (BitVec (8 * w) → BitVec (8 * w) → BitVec (8 * w) → BitVec (8 * w))) :=
  [(.aaddN32 g d a b c, ⟨4, fun m x _ => m + x⟩), (.aswpN32 g d a b c, ⟨4, fun _ x _ => x⟩),
   (.amaxI32 g d a b c, ⟨4, fun m x _ => if m.toInt < x.toInt then x else m⟩), (.amaxN32 g d a b c, ⟨4, fun m x _ => if m.toNat < x.toNat then x else m⟩),
   (.aminI32 g d a b c, ⟨4, fun m x _ => if x.toInt < m.toInt then x else m⟩), (.aminN32 g d a b c, ⟨4, fun m x _ => if x.toNat < m.toNat then x else m⟩),
   (.aorN32 g d a b c, ⟨4, fun m x _ => m ||| x⟩), (.acasN32 g d a b c, ⟨4, fun m x e => if m = e then x else m⟩),
   (.aaddN64 g d a b c, ⟨8, fun m x _ => m + x⟩), (.aswpN64 g d a b c, ⟨8, fun _ x _ => x⟩),
   (.amaxI64 g d a b c, ⟨8, fun m x _ => if m.toInt < x.toInt then x else m⟩), (.amaxN64 g d a b c, ⟨8, fun m x _ => if m.toNat < x.toNat then x else m⟩),
   (.aminI64 g d a b c, ⟨8, fun m x _ => if x.toInt < m.toInt then x else m⟩), (.aminN64 g d a b c, ⟨8, fun m x _ => if x.toNat < m.toNat then x else m⟩),
   (.aorN64 g d a b c, ⟨8, fun m x _ => m ||| x⟩), (.acasN64 g d a b c, ⟨8, fun m x e => if m = e then x else m⟩)]

end Sys2Proof.Claims

/-- R183, R76: a load gives the little-endian number at its address, extended as the form says, and changes no byte of memory; a `.w` or
`.wc` form in the core's own memory does so when the granule is full, and `.wc` then empties it; until it is full the load waits. (pa is aligned as va is wherever a
page maps it, R356; a line that the cluster cache holds may be older than memory, R104.) -/
def Obligations.LoadResults : Prop :=
  ∀ (s : State) (g : BitVec 3) (d a : BitVec 5) (c : BitVec 4) (o : BitVec 8), s.pred g = true → ∀ e ∈ loadForms g d a c o, ∀ pa : Nat,
    let va := memAt s a o e.2.2.2
    (va % e.2.2.2 = 0 → pa % e.2.2.2 = 0 → reaches s va e.2.2.2 false pa → uncached s pa → (e.2.1 = 0 ∨ (spaceOf va = some .core ∧ fullAt s pa = true)) →
      answers e.1 s fun t =>
        advancesWith d d s t ∧ samePreds s.me.su t.me.su ∧ sameMemory s t ∧ reads d (loaded e.2.2.1 e.2.2.2 (memNat s.mem pa e.2.2.2)) t ∧
          ∀ x, fullAt t x = (fullAt s x && !(decide (e.2.1 = 2) && decide (x / 16 = pa / 16)))) ∧
    (e.2.1 ≠ 0 → va % e.2.2.2 = 0 → spaceOf va = some .core → pa = coreBase s.cur.1 + (va - 0x000FFFFFFFF80000) → fullAt s pa = false → answers e.1 s (waits s))

/-- R183, R76: a store writes the low bytes of rd at its address and no other byte; `.set` leaves the granule full, `.clr` empty, and the
plain form leaves every full-empty bit as it was. -/
def Obligations.StoreResults : Prop :=
  ∀ (s : State) (g : BitVec 3) (d a : BitVec 5) (c : BitVec 4) (o : BitVec 8), s.pred g = true → ∀ e ∈ storeForms g d a c o, ∀ pa : Nat,
    let va := memAt s a o e.2.2
    va % e.2.2 = 0 → reaches s va e.2.2 true pa → (e.2.1 = 0 ∨ spaceOf va = some .core) →
      answers e.1 s fun t =>
        advances s t ∧ sameRegs s.me.su t.me.su ∧ samePreds s.me.su t.me.su ∧ sameMemoryBut pa e.2.2 s t ∧
          memNat t.mem pa e.2.2 = (s.x d).toNat % 256 ^ e.2.2 ∧
          ∀ x, fullAt t x = if e.2.1 = 1 ∧ x / 16 = pa / 16 then true else if e.2.1 = 2 ∧ x / 16 = pa / 16 then false else fullAt s x

/-- R184, R185: ald gives the number at its address and ast writes it, on 4 or 8 bytes; an atomic read-modify-write gives the old value, zero-extended,
and leaves the new one in memory, changing no other byte. -/
def Obligations.AtomicResults : Prop :=
  ∀ (s : State) (g : BitVec 3) (d a b : BitVec 5) (c : BitVec 4) (o : BitVec 8), s.pred g = true →
    (∀ e ∈ [(Instr.aldN32 g d a c o, 4), (.aldN64 g d a c o, 8)], ∀ pa : Nat, memAt s a o e.2 % e.2 = 0 → reaches s (memAt s a o e.2) e.2 false pa →
      answers e.1 s fun t => advancesWith d d s t ∧ samePreds s.me.su t.me.su ∧ sameMemory s t ∧ reads d (BitVec.ofNat 64 (memNat s.mem pa e.2)) t) ∧
    (∀ e ∈ [(Instr.astN32 g d a c o, 4), (.astN64 g d a c o, 8)], ∀ pa : Nat, memAt s a o e.2 % e.2 = 0 → reaches s (memAt s a o e.2) e.2 true pa →
      answers e.1 s fun t => advances s t ∧ sameRegs s.me.su t.me.su ∧ samePreds s.me.su t.me.su ∧ sameMemoryBut pa e.2 s t ∧
        memNat t.mem pa e.2 = (s.x d).toNat % 256 ^ e.2) ∧
    (∀ e ∈ atomicForms g d a b c, ∀ pa : Nat,
      let w := e.2.1
      (s.x a).toNat % w = 0 → reaches s (s.x a).toNat w true pa →
        answers e.1 s fun t =>
          advancesWith d d s t ∧ samePreds s.me.su t.me.su ∧ sameMemoryBut pa w s t ∧ reads d (BitVec.ofNat 64 (memNat s.mem pa w)) t ∧
            memNat t.mem pa w = (e.2.2 (BitVec.ofNat (8 * w) (memNat s.mem pa w)) ((s.x b).setWidth (8 * w)) ((s.x d).setWidth (8 * w))).toNat)

/-- R173, R183 to R185: an access outside every window traps with cause 0x10, a full-empty form outside the core's memory with 0x12, and a misaligned
access with 0x11, in that order, and memory is unchanged: every load, store, atomic load and store, and atomic read-modify-write. -/
def Obligations.AccessTraps : Prop :=
  ∀ (s : State) (g : BitVec 3) (d a b : BitVec 5) (c : BitVec 4) (o : BitVec 8), s.pred g = true →
    (∀ e ∈ loadForms g d a c o,
      let va := memAt s a o e.2.2.2
      (spaceOf va = none → answers e.1 s (traps 0x10 0 s)) ∧
      (spaceOf va ≠ none → spaceOf va ≠ some .core → e.2.1 ≠ 0 → answers e.1 s (traps 0x12 0 s)) ∧
      (spaceOf va ≠ none → (spaceOf va = some .core ∨ e.2.1 = 0) → va % e.2.2.2 ≠ 0 → answers e.1 s (traps 0x11 0 s))) ∧
    (∀ e ∈ storeForms g d a c o,
      let va := memAt s a o e.2.2
      (spaceOf va = none → answers e.1 s (traps 0x10 0 s)) ∧
      (spaceOf va ≠ none → spaceOf va ≠ some .core → e.2.1 ≠ 0 → answers e.1 s (traps 0x12 0 s)) ∧
      (spaceOf va ≠ none → (spaceOf va = some .core ∨ e.2.1 = 0) → va % e.2.2 ≠ 0 → answers e.1 s (traps 0x11 0 s))) ∧
    (∀ e ∈ atomicForms g d a b c,
      (spaceOf (s.x a).toNat = none → answers e.1 s (traps 0x10 0 s)) ∧
      (spaceOf (s.x a).toNat ≠ none → (s.x a).toNat % e.2.1 ≠ 0 → answers e.1 s (traps 0x11 0 s))) ∧
    (∀ e ∈ [(Instr.aldN32 g d a c o, 4), (.aldN64 g d a c o, 8), (.astN32 g d a c o, 4), (.astN64 g d a c o, 8)],
      let va := memAt s a o e.2
      (spaceOf va = none → answers e.1 s (traps 0x10 0 s)) ∧ (spaceOf va ≠ none → va % e.2 ≠ 0 → answers e.1 s (traps 0x11 0 s)))

/-- R186, R105, R108: a fence of a stated scope goes on without touching a register or memory, and a scope code of 5 to 7 traps with 0x04. That at die scope or wider, with a class
in its mask, the cluster's cached lines are dropped is the model's choice (log entry 4), deduced from R105 and R108. -/
def Obligations.FenceEffects : Prop :=
  ∀ (s : State) (g sc : BitVec 3) (m : BitVec 16), s.pred g = true →
    (sc.toNat < 5 → answers (.fence g sc m) s fun t => advancesQuietly s t ∧ (2 ≤ sc.toNat → m ≠ 0 → (t.cluster (clusterOf s.cur.1)).cache = [])) ∧
    (5 ≤ sc.toNat → answers (.fence g sc m) s (traps 0x04 0 s))

/-! ### Control registers (R207, R319 to R321) -/

namespace Sys2Proof.Claims

/-- Registers that a strand may read unprivileged, with their contents (R321). -/
def readable (s : State) : List (BitVec 12 × W64) :=
  [(0x010, BitVec.ofNat 64 s.me.ctx), (0x012, (s.ctxOf s.cur.1).rctrap.setWidth 64), (0x013, s.me.su.rspill), (0x014, (s.ctxOf s.cur.1).racelog),
   (0x015, s.me.su.epc), (0x016, s.me.su.cause), (0x017, (s.ctxOf s.cur.1).tvec), (0x01A, (s.ctxOf s.cur.1).wake)]

/-- Nothing but the control register written has changed beside S itself: the context's registers, or the strand's. -/
def writesContext (x : Ctx) (s t : State) : Prop :=
  advancesQuietly s t ∧ t.ctx s.me.ctx = x ∧ ∀ c, c ≠ s.me.ctx → t.ctx c = s.ctx c

end Sys2Proof.Claims

/-- R207, R319 to R321: getcr gives a control register's contents and changes nothing; an unknown number traps with 0x08, a register that only a
privileged strand may read with 0x09. setcr writes the defined fields of a register; a register for privileged strands traps with 0x09 for others,
CTX.EPC and CTX.CAUSE are written by anyone only while INH is set, and a read-only register traps with 0x0A. -/
def Obligations.ControlRegisters : Prop :=
  ∀ (s : State) (g : BitVec 3) (d : BitVec 5), s.pred g = true →
    (∀ e ∈ readable s, answers (.getcr g d 0 e.1) s (writesReg d e.2 s)) ∧
    (∀ n ∈ [(0x003 : BitVec 12), 0x01B, 0x021, 0x055, 0xFFF], answers (.getcr g d 0 n) s (traps 0x08 0 s)) ∧
    ((s.ctxOf s.cur.1).priv = false → ∀ n ∈ [(0x051 : BitVec 12), 0x052, 0x053, 0x054, 0x030], answers (.getcr g d 0 n) s (traps 0x09 0 s)) ∧
    let x := s.ctxOf s.cur.1
    let v := s.x d
    (v.toNat % 2 ^ 32 < 16 → answers (.setcr g d 0 0x012) s (writesContext { x with rctrap := v.setWidth 4 } s)) ∧
    (x.priv = true → v.toNat < 2 ^ 52 → v.toNat % 4 = 0 → answers (.setcr g d 0 0x017) s (writesContext { x with tvec := v } s)) ∧
    (x.priv = true → v.toNat < 2 ^ 52 → v.toNat % 16 = 0 → answers (.setcr g d 0 0x014) s (writesContext { x with racelog := v } s)) ∧
    (s.me.su.inh = true → v.toNat < 2 ^ 52 → v.toNat % 4 = 0 → answers (.setcr g d 0 0x015) s fun t =>
      movesTo (s.me.su.pc + 4) s t ∧ sameRegs s.me.su t.me.su ∧ samePreds s.me.su t.me.su ∧ t.me.su.epc = v ∧ t.me.su.cause = s.me.su.cause ∧ t.me.su.inh = true) ∧
    (x.priv = false → ∀ n ∈ [(0x011 : BitVec 12), 0x013, 0x014, 0x017, 0x018, 0x019, 0x01A, 0x051, 0x053], answers (.setcr g d 0 n) s (traps 0x09 0 s)) ∧
    (s.me.su.inh = false → x.priv = false → ∀ n ∈ [(0x015 : BitVec 12), 0x016], answers (.setcr g d 0 n) s (traps 0x09 0 s)) ∧
    (∀ n ∈ [(0x000 : BitVec 12), 0x001, 0x002, 0x010, 0x020, 0x050], answers (.setcr g d 0 n) s (traps 0x0A 0 s))

/-! ### Engines, tokens, rings (R13 to R19, R187 to R191) -/

/-- R16, R187: fork starts every engine it names, from the third cycle after, and no other; an engine without a ring traps with 0x26, one that is
already forked with 0x25. rdv waits until every engine it names that is forked is idle, and then stops them. -/
def Obligations.ForkAndRdv : Prop :=
  ∀ (s : State) (g : BitVec 3) (m : BitVec 6), s.pred g = true →
    let named (e : Nat) : Prop := 1 ≤ e ∧ e ≤ 6 ∧ m.getLsbD (e - 1) = true
    ((∀ e, named e → (s.me.engine e).ring.declared = true ∧ (s.me.engine e).ring.forked = false) → answers (.fork g m) s fun t =>
      advancesQuietly s t ∧ (∀ e, named e → (t.me.engine e).ring.forked = true ∧ (t.me.engine e).ring.start = s.me.cy + 3) ∧
        ∀ e, ¬ named e → t.me.engine e = s.me.engine e) ∧
    ((∃ e, named e ∧ (s.me.engine e).ring.declared = false) → answers (.fork g m) s (traps 0x26 0 s)) ∧
    ((∀ e, named e → (s.me.engine e).ring.declared = true) → (∃ e, named e ∧ (s.me.engine e).ring.forked = true) → answers (.fork g m) s (traps 0x25 0 s)) ∧
    ((∀ e, named e → (s.me.engine e).ring.forked = true → engineIdle s s.cur.1 e = true) → answers (.rdv g m) s fun t =>
      advancesQuietly s t ∧ (∀ e, named e → (t.me.engine e).ring.forked = false) ∧ ∀ e, ¬ named e → t.me.engine e = s.me.engine e) ∧
    ((∃ e, named e ∧ (s.me.engine e).ring.forked = true ∧ engineIdle s s.cur.1 e = false) → answers (.rdv g m) s (waits s))

/-- R18, R20, R188: once every earlier access of S has performed, tksig pushes one token from S to an engine, which can be popped two cycles later, unless the queue
holds 15, and before that it waits; to the network it is an arrival, and the last one of a phase takes an arrival of every member (a saved strand whose core has taken
another one is still a member) and sends the phase's tokens, six cycles later; tkwait pops the oldest token from an engine or the network, and waits while there is none; engine number 0 traps with 0x21. -/
def Obligations.TokensOfS : Prop :=
  ∀ (s : State) (g : BitVec 3) (e : BitVec 3), s.pred g = true → s.me.mir.st = .running → s.cur.1 < 1280 →
    let k := clusterOf s.cur.1
    (e = 0 → answers (.tksig g e) s (traps 0x21 0 s) ∧ answers (.tkwait g e) s (traps 0x21 0 s)) ∧
    (e ≠ 0 → s.allPerformed = false → answers (.tksig g e) s (waits s)) ∧
    (s.allPerformed = true → e ≠ 0 → e ≠ 7 → (s.me.tokens 0 e.toNat).length < 15 → answers (.tksig g e) s fun t =>
      advancesQuietly s t ∧ ∃ x : Tok, t.me.tokens 0 e.toNat = s.me.tokens 0 e.toNat ++ [x] ∧ x.ready = s.me.cy + 2) ∧
    (e ≠ 0 → e ≠ 7 → 15 ≤ (s.me.tokens 0 e.toNat).length → answers (.tksig g e) s (waits s)) ∧
    (s.allPerformed = true → e = 7 → (∃ m ∈ members s k s.me.kern, m ≠ s.cur.1 ∧ (s.strand m).q.arrivals = []) → answers (.tksig g e) s fun t =>
      advancesQuietly s t ∧ (∃ r, t.me.q.arrivals = s.me.q.arrivals ++ [r]) ∧ (t.cluster k).phases = (s.cluster k).phases) ∧
    (s.allPerformed = true → e = 7 → (∀ m ∈ members s k s.me.kern, m ≠ s.cur.1 → (s.strand m).q.arrivals ≠ []) → s.me.q.arrivals = [] → answers (.tksig g e) s fun t =>
      advancesQuietly s t ∧ t.me.q.arrivals = [] ∧ (∀ m ∈ members s k s.me.kern, m ≠ s.cur.1 → (t.strand m).q.arrivals = (s.strand m).q.arrivals.drop 1) ∧
        ∃ p : NetPhase, (t.cluster k).phases = (s.cluster k).phases ++ [p] ∧ p.kern = s.me.kern ∧ p.due = (s.cluster k).dcy + 6 ∧ p.members = members s k s.me.kern) ∧
    (e ≠ 0 → e ≠ 7 → ∀ (x : Tok) (l : List Tok), s.me.tokens e.toNat 0 = x :: l → x.ready ≤ s.me.cy → answers (.tkwait g e) s fun t =>
      advancesQuietly s t ∧ t.me.tokens e.toNat 0 = l) ∧
    (e ≠ 0 → e ≠ 7 → s.me.tokens e.toNat 0 = [] → answers (.tkwait g e) s (waits s)) ∧
    (e = 7 → ∀ (x : Tok) (l : List Tok), s.me.q.net = x :: l → x.ready ≤ s.me.cy → answers (.tkwait g e) s fun t => advancesQuietly s t ∧ t.me.q.net = l) ∧
    (e = 7 → s.me.q.net = [] → answers (.tkwait g e) s (waits s))

/-- R13, R189 to R191: enq writes a word at the tail of a fed ring and moves the tail (no watermark stalls the write, and no unseen write is recorded in its sector), trapping with 0x26 without a ring and with 0x24 on a static one; ksend
broadcasts the low half of a register to k[n], landing two cycles later, and on a fed V ring waits first until V has issued every entry (its ring is empty, no loop runs, and its
next issue is not later); ipop gives the oldest inbox entry and its engine, and waits while there is none. -/
def Obligations.EngineData : Prop :=
  ∀ (s : State) (g : BitVec 3) (e b d a : BitVec 5) (k : BitVec 4), s.pred g = true →
    let r := (s.me.engine e.toNat).ring
    let pa := coreBase s.cur.1 + r.base + 8 * (r.tail % r.size)
    (r.declared = true → r.isStatic = false → (r.tail + 2 * r.size - r.head) % (2 * r.size) < r.size → watermarkStall s (whoS s s.cur.1) pa 8 = false → mapFind (pa / 64) s.shadow = none →
      answers (.enq g e b) s fun t =>
      advances s t ∧ sameRegs s.me.su t.me.su ∧ samePreds s.me.su t.me.su ∧ sameMemoryBut pa 8 s t ∧ memNat t.mem pa 8 = (s.x b).toNat ∧
        (t.me.engine e.toNat).ring.tail = (r.tail + 1) % (2 * r.size) ∧ (t.me.engine e.toNat).ring.head = r.head ∧
        ∀ j, j ≠ e.toNat → t.me.engine j = s.me.engine j) ∧
    (r.declared = true → r.isStatic = false → r.size ≤ (r.tail + 2 * r.size - r.head) % (2 * r.size) → answers (.enq g e b) s (waits s)) ∧
    (r.declared = false → answers (.enq g e b) s (traps 0x26 0 s)) ∧
    (r.declared = true → r.isStatic = true → answers (.enq g e b) s (traps 0x24 0 s)) ∧
    ((s.me.engine 4).ring.declared = true → (s.me.engine 4).ring.isStatic = false → vDrained s.me = false → answers (.ksend g k b) s (waits s)) ∧
    ((s.me.engine 4).ring.declared = false ∨ (s.me.engine 4).ring.isStatic = true ∨ vDrained s.me = true → answers (.ksend g k b) s fun t =>
      advancesQuietly s t ∧ ∃ x ∈ t.me.v.landings, x.due = s.me.cy + 2 ∧ x.targets = [.kreg k.toNat ((s.x b).setWidth 32)]) ∧
    ((d ≠ a ∨ d = 0) → ∀ (x : InEnt) (l : List InEnt), s.me.q.inbox = x :: l → x.ready ≤ s.me.cy → answers (.ipop g d a) s fun t =>
      advancesWith d a s t ∧ sameMemory s t ∧ samePreds s.me.su t.me.su ∧ reads d x.value t ∧ reads a (BitVec.ofNat 64 x.tag) t ∧ t.me.q.inbox = l) ∧
    ((d ≠ a ∨ d = 0) → (∀ x ∈ s.me.q.inbox.head?, s.me.cy < x.ready) → answers (.ipop g d a) s (waits s)) ∧
    (d = a → d ≠ 0 → answers (.ipop g d a) s (traps 0x02 0 s))

/-! ### Descriptors, barriers, beam maps (R78 to R88, R96, R97, R192 to R195) -/

/-- R86 to R88, R193: hset fills a free slot with a valid image from the core's memory and gives its handle; a slot in use or an invalid image traps with
0x42; hfree frees a slot that its handle names, so that the handle fails from then on, and traps with 0x41 on a stale one. hget writes the 32 bytes of
a slot's descriptor to the core's memory and no other byte, and gives the slot's state. While a command is in flight on the slot, hset waits. The model's choices here: an image whose reserved bits are
set is accepted, and the bits are dropped (log entry 57), and ROWS or COLS out of range make one invalid (log entry 16). -/
def Obligations.DescriptorSlots : Prop :=
  ∀ (s : State) (g : BitVec 3) (d a b : BitVec 5) (pa : Nat), s.pred g = true →
    let va := (s.x b).toNat
    let n := (s.x a).toNat % 4096
    let old := (s.ctxOf s.cur.1).slot n
    let img := descOf (memBytes s.mem pa 32)
    let h := (s.x a).toNat
    let there := spaceOf va = some .core ∧ va % 16 = 0 ∧ va ≤ 2 ^ 52 - 32 ∧ reaches s va 32 false pa
    (there → old.valid = false → descValid img = true → old.inflight = 0 → answers (.hset g d a b) s fun t =>
      advancesWith d d s t ∧ sameMemory s t ∧ samePreds s.me.su t.me.su ∧ reads d (BitVec.ofNat 64 (old.gen * 4096 + n)) t ∧
        (t.ctxOf s.cur.1).slot n = { img with valid := true, gen := old.gen, inflight := old.inflight } ∧
        ∀ j, j ≠ n → (t.ctxOf s.cur.1).slot j = (s.ctxOf s.cur.1).slot j) ∧
    (there → old.valid = false → descValid img = true → old.inflight ≠ 0 → answers (.hset g d a b) s fun t => t.cur = s.cur ∧ sameMemory s t ∧ sameRegs s.me.su t.me.su ∧ samePreds s.me.su t.me.su ∧
        t.me.su.wait = .stalled ∧ t.me.su.pc = s.me.su.pc ∧ ∀ j, (t.ctxOf s.cur.1).slot j = (s.ctxOf s.cur.1).slot j) ∧
    (there → (old.valid = true ∨ descValid img = false) → answers (.hset g d a b) s (traps 0x42 0 s)) ∧
    (h < 2 ^ 20 → old.valid = true → old.gen = h / 4096 → answers (.hfree g a) s fun t =>
      advancesQuietly s t ∧ (t.ctxOf s.cur.1).slot n = { old with valid := false, gen := (old.gen + 1) % 256 } ∧
        handleCheck t s.me.ctx h = none ∧ ∀ j, j ≠ n → (t.ctxOf s.cur.1).slot j = (s.ctxOf s.cur.1).slot j) ∧
    ((2 ^ 20 ≤ h ∨ old.valid = false ∨ old.gen ≠ h / 4096) → answers (.hfree g a) s (traps 0x41 0 s)) ∧
    (spaceOf va = some .core → va % 16 = 0 → va ≤ 2 ^ 52 - 32 → reaches s va 32 true pa → answers (.hget g d a b) s fun t =>
      advancesWith d d s t ∧ samePreds s.me.su t.me.su ∧ sameMemoryBut pa 32 s t ∧ memBytes t.mem pa 32 = descBytes old ∧
        reads d (BitVec.ofNat 64 ((if old.valid then 2 ^ 20 else 0) + old.gen * 4096 + n)) t)

namespace Sys2Proof.Claims

/-- The fields of the barrier object at a physical address (R78). -/
def expectAt (s : State) (pa : Nat) : Nat := memNat s.mem pa 2
def arrivedAt (s : State) (pa : Nat) : Nat := memNat s.mem (pa + 2) 2
def pendingAt (s : State) (pa : Nat) : Nat := memNat s.mem (pa + 4) 5
def phaseAt (s : State) (pa : Nat) : Nat := memNat s.mem (pa + 12) 4

/-- The barrier holds these fields, and no byte outside the object has changed. -/
def barrierIs (pa expect arrived pending phase : Nat) (s t : State) : Prop :=
  expectAt t pa = expect ∧ arrivedAt t pa = arrived ∧ pendingAt t pa = pending ∧ phaseAt t pa = phase ∧ sameMemoryBut pa 16 s t

/-- A 16-byte object of the cluster's memory that S can reach. -/
def objectThere (s : State) (va pa : Nat) : Prop :=
  spaceOf va = some .cluster ∧ va % 16 = 0 ∧ va + 16 ≤ 0x000FFFFFFF800000 ∧ reaches s va 16 false pa

end Sys2Proof.Claims

/-- R79, R80, R194: bexp raises PENDING, barr counts an arrival and gives the phase before it, the last arrival with nothing pending completes the phase (ARRIVED
to 0, PHASE one higher), and an object with EXPECT 0 or already full traps with 0x43; bwait goes on at once when the phase differs; else it waits for a completion
of that phase of that object, and goes on once one has released it. -/
def Obligations.BarrierObjects : Prop :=
  ∀ (s : State) (g : BitVec 3) (d a b : BitVec 5) (pa : Nat), s.pred g = true → objectThere s (s.x a).toNat pa →
    let e := expectAt s pa
    let r := arrivedAt s pa
    let p := pendingAt s pa
    let ph := phaseAt s pa
    let n := (s.x b).toNat
    (e ≠ 0 → r < e → p + n < 2 ^ 40 → n < 2 ^ 40 → answers (.bexp g a b) s fun t =>
      advances s t ∧ sameRegs s.me.su t.me.su ∧ samePreds s.me.su t.me.su ∧ barrierIs pa e r (p + n) ph s t) ∧
    (e ≠ 0 → r + 1 < e ∨ (r + 1 = e ∧ p ≠ 0) → answers (.barr g d a) s fun t =>
      advancesWith d d s t ∧ samePreds s.me.su t.me.su ∧ reads d (BitVec.ofNat 64 ph) t ∧ barrierIs pa e (r + 1) p ph s t) ∧
    (r + 1 = e → p = 0 → answers (.barr g d a) s fun t =>
      advancesWith d d s t ∧ samePreds s.me.su t.me.su ∧ reads d (BitVec.ofNat 64 ph) t ∧ barrierIs pa e 0 0 ((ph + 1) % 2 ^ 32) s t) ∧
    ((e = 0 ∨ e ≤ r) → answers (.barr g d a) s (traps 0x43 0 s)) ∧
    (e ≠ 0 → ph ≠ n % 2 ^ 32 → answers (.bwait g a b) s (advancesQuietly s)) ∧
    (s.me.su.wait ≠ .passed → e ≠ 0 → ph = n % 2 ^ 32 → answers (.bwait g a b) s (waitsFor (.bar pa ph) s)) ∧
    (s.me.su.wait = .passed → answers (.bwait g a b) s (advancesQuietly s)) ∧
    (s.me.su.wait ≠ .passed → e = 0 → answers (.bwait g a b) s (traps 0x43 0 s))

/-- R192: an object outside every window traps with 0x10, one in the wrong memory with 0x13, a misaligned one with 0x11. (A bwait that has been released has
passed these checks.) -/
def Obligations.ObjectTraps : Prop :=
  ∀ (s : State) (g : BitVec 3) (d a b : BitVec 5), s.pred g = true → s.me.su.wait ≠ .passed →
    ∀ e ∈ [(Instr.bexp g a b, s.x a, Space.cluster), (.barr g d a, s.x a, .cluster), (.bwait g a b, s.x a, .cluster), (.done g a, s.x a, .cluster),
        (.hset g d a b, s.x b, .core), (.hget g d a b, s.x b, .core), (.bmset g d a b, s.x a, .device), (.bmcopy g d a b, s.x a, .device)],
      (spaceOf e.2.1.toNat = none → answers e.1 s (traps 0x10 0 s)) ∧
      (spaceOf e.2.1.toNat ≠ none → spaceOf e.2.1.toNat ≠ some e.2.2 → answers e.1 s (traps 0x13 0 s)) ∧
      (spaceOf e.2.1.toNat = some e.2.2 → e.2.1.toNat % 16 ≠ 0 → answers e.1 s (traps 0x11 0 s))

namespace Sys2Proof.Claims

/-- A beam-map header that S can read at an address, with its numbers of sequences, beams and logical blocks (R96). -/
def mapThere (s : State) (va pa nseq nbeam nlblk : Nat) : Prop :=
  spaceOf va = some .device ∧ spaceOf (va + 15) = some .device ∧ va % 16 = 0 ∧ reaches s va 16 false pa ∧
    memNat s.mem pa 2 = nseq ∧ memNat s.mem (pa + 2) 2 = nbeam ∧ memNat s.mem (pa + 4) 2 = nlblk

/-- A packed beam index (R195). -/
def beamIndex (seq beam lblk : Nat) : W64 := BitVec.ofNat 64 (seq * 2 ^ 32 + beam * 2 ^ 16 + lblk)

/-- A bmcopy has not begun, or has read these numbers in the map's header. -/
def bmKnown (s : State) (nseq nbeam nlblk : Nat) : Prop := s.me.su.bm = [] ∨ ∃ cyc, s.me.su.bm = [nseq, nbeam, nlblk, cyc]
/-- The state in which a bmcopy goes to its entries: it has placed the header unless it has read that before. -/
def afterHeader (s : State) (va : Nat) (t : State) : Prop :=
  if s.me.su.bm = [] then ∃ r, place s (whoS s s.cur.1) va false false = .ok r t else t = s

/-- Address of an entry of a map (R96). -/
def entryAt (va nbeam nlblk seq beam lblk : Nat) : Nat := va + (16 + 8 * ((seq * nbeam + beam) * nlblk + lblk))

end Sys2Proof.Claims

/-- R96, R97, R195: bmset writes one entry of the map and no other byte; bmcopy reads the header first, copies one entry at each try, keeping count, and goes on when it has copied all
of them; an index beyond the map's header traps with 0x17. It begins where every entry of both beams can be reached and read. The model's choices here: it looks for that before it writes the first entry
(log entry 74), and the header's counts are taken as they stand (log entry 76). -/
def Obligations.BeamMaps : Prop :=
  ∀ (s : State) (g : BitVec 3) (d a b : BitVec 5) (pa nseq nbeam nlblk seq beam lblk : Nat), s.pred g = true →
    let va := (s.x a).toNat
    mapThere s va pa nseq nbeam nlblk → seq < 4096 → beam < 64 → lblk < 2 ^ 16 → s.x d = beamIndex seq beam lblk →
    (seq < nseq → beam < nbeam → lblk < nlblk → (s.x b).toNat / 2 ^ 36 % 2 ^ 25 = 0 → ∀ pe : Nat,
      (∀ r t, place s (whoS s s.cur.1) va false false = .ok r t →
        ∃ q u, place t (whoS t t.cur.1) (entryAt va nbeam nlblk seq beam lblk) true false = .ok q u ∧ q.pa = pe) →
      watermarkStall s (whoS s s.cur.1) pe 8 = false → answers (.bmset g d a b) s fun t =>
        advances s t ∧ sameRegs s.me.su t.me.su ∧ samePreds s.me.su t.me.su ∧ sameMemoryBut pe 8 s t ∧ memNat t.mem pe 8 = (s.x b).toNat) ∧
    (seq < nseq → beam < nbeam → lblk = 0 → ∀ seq' beam' ps pd : Nat, seq' < nseq → beam' < nbeam → seq' < 4096 → beam' < 64 → s.x b = beamIndex seq' beam' 0 →
      let n := s.me.su.steps
      n < nlblk → bmKnown s nseq nbeam nlblk →
      (n = 0 → ∀ t, afterHeader s va t → ∀ m, m < nlblk → (∃ q u, place t (whoS t t.cur.1) (entryAt va nbeam nlblk seq' beam' m) false false = .ok q u ∧ rangePoisoned t q.pa 8 = false) ∧
        ∃ q u, place t (whoS t t.cur.1) (entryAt va nbeam nlblk seq beam m) true false = .ok q u) →
      (∀ t, afterHeader s va t →
        ∃ q u, place t (whoS t t.cur.1) (entryAt va nbeam nlblk seq' beam' n) false false = .ok q u ∧ q.pa = ps ∧
          ∃ q' u', place u (whoS u u.cur.1) (entryAt va nbeam nlblk seq beam n) true false = .ok q' u' ∧ q'.pa = pd) →
      watermarkStall s (whoS s s.cur.1) ps 8 = false → watermarkStall s (whoS s s.cur.1) pd 8 = false → rangePoisoned s ps 8 = false →
        answers (.bmcopy g d a b) s fun t => t.cur = s.cur ∧ t.me.su.wait = .stalled ∧ t.me.su.pc = s.me.su.pc ∧ t.me.su.steps = n + 1 ∧
          bmKnown t nseq nbeam nlblk ∧ sameRegs s.me.su t.me.su ∧ samePreds s.me.su t.me.su ∧ sameMemoryBut pd 8 s t ∧ memBytes t.mem pd 8 = memBytes s.mem ps 8) ∧
    (seq < nseq → beam < nbeam → lblk = 0 → s.x b = s.x d → nlblk ≤ s.me.su.steps → 0 < nlblk → bmKnown s nseq nbeam nlblk → answers (.bmcopy g d a b) s (advancesQuietly s)) ∧
    (∀ r u, place s (whoS s s.cur.1) va false false = .ok r u →
      ((nseq ≤ seq ∨ nbeam ≤ beam ∨ nlblk ≤ lblk) → answers (.bmset g d a b) s (traps 0x17 0 u)) ∧
      (lblk ≠ 0 → s.me.su.steps = 0 → s.me.su.bm = [] → answers (.bmcopy g d a b) s (traps 0x17 0 u)))

/-! ### Dependences, range tasks, join counters, messages, the end of a strand (R27 to R30, R196 to R200, R204, R205) -/

/-- R27, R197, R198: rtnew sets the grain and gives the strand the whole interval, every other core of the cluster an empty one, and traps with 0x4A while a range is left or
for a bad range; rtclaim takes up to the grain from the strand's own interval, the low end first. With its own interval empty it takes the oldest continuation, else the oldest free
interval, else the upper half of the longest interval of its cluster (the lowest core's, on a tie) if that holds twice the grain, and else it answers zeros and false. -/
def Obligations.RangeTasks : Prop :=
  ∀ (s : State) (g p : BitVec 3) (d a b : BitVec 5), s.pred g = true →
    let k := clusterOf s.cur.1
    let lo := (s.x a).toNat
    let hi := (s.x b).toNat
    let gr := (s.x d).toNat
    let none_ := (∀ i, i < 8 → (s.core (k * 8 + i)).rint.2 ≤ (s.core (k * 8 + i)).rint.1) ∧ (s.cluster k).task.free = []
    (lo ≤ hi → hi < 2 ^ 32 → 0 < gr → gr < 2 ^ 32 → none_ → answers (.rtnew g d a b) s fun t =>
      advancesQuietly s t ∧ t.me.rint = (lo, hi) ∧ (t.cluster k).task.grain = gr ∧ ∀ i, i < 8 → k * 8 + i ≠ s.cur.1 → (t.core (k * 8 + i)).rint = (0, 0)) ∧
    ((hi < lo ∨ 2 ^ 32 ≤ hi ∨ gr = 0 ∨ 2 ^ 32 ≤ gr ∨ ¬ none_) → answers (.rtnew g d a b) s (traps 0x4A 0 s)) ∧
    (∀ x y : Nat, s.me.rint = (x, y) → x < y → (d ≠ a ∨ d = 0) → answers (.rtclaim g d a p) s fun t =>
      advancesWith d a s t ∧ sameMemory s t ∧ samePredsBut p.toNat s.me.su t.me.su ∧ readsPred p true t ∧ reads d (BitVec.ofNat 64 x) t ∧
        reads a (BitVec.ofNat 64 (min (x + (s.cluster k).task.grain) y)) t ∧ t.me.rint = (min (x + (s.cluster k).task.grain) y, y)) ∧
    (d = a → d ≠ 0 → answers (.rtclaim g d a p) s (traps 0x02 0 s)) ∧
    (s.me.rint.2 ≤ s.me.rint.1 → (d ≠ a ∨ d = 0) →
      let u := (s.cluster k).task
      let gives (x y : W64) (ok : Bool) (P : State → Prop) : Prop := answers (.rtclaim g d a p) s fun t =>
        advancesWith d a s t ∧ sameMemory s t ∧ samePredsBut p.toNat s.me.su t.me.su ∧ readsPred p ok t ∧ reads d x t ∧ reads a y t ∧ P t
      (∀ cont addr rels l, u.conts = (cont, addr, rels) :: l → gives cont (BitVec.ofNat 64 (2 ^ 63) ||| addr) true fun t => (t.cluster k).task.conts = l ∧ t.me.rint = s.me.rint) ∧
      (u.conts = [] → (∀ x y l, u.free = (x, y) :: l → gives (BitVec.ofNat 64 x) (BitVec.ofNat 64 (min (x + u.grain) y)) true fun t =>
          (t.cluster k).task.free = l ∧ t.me.rint = (min (x + u.grain) y, y)) ∧
        (u.free = [] → 0 < u.grain → ∀ o x y : Nat, o < 8 → (s.core (k * 8 + o)).rint = (x, y) →
          (∀ i, i < 8 → remaining s (k * 8 + i) ≤ y - x) → (∀ i, i < o → remaining s (k * 8 + i) < y - x) →
          (2 * u.grain ≤ y - x → let mid := x + (y - x) / 2
            gives (BitVec.ofNat 64 mid) (BitVec.ofNat 64 (min (mid + u.grain) y)) true fun t => (t.core (k * 8 + o)).rint = (x, mid) ∧ t.me.rint = (min (mid + u.grain) y, y)) ∧
          (y - x < 2 * u.grain → gives 0 0 false fun t => ∀ i, i < 8 → (t.core (k * 8 + i)).rint = (s.core (k * 8 + i)).rint))))

/-- R28, R199: done counts a join counter down by one, queues its continuation when it reaches zero, and traps with 0x48 at zero. -/
def Obligations.JoinCounters : Prop :=
  ∀ (s : State) (g : BitVec 3) (a : BitVec 5) (pa : Nat), s.pred g = true → objectThere s (s.x a).toNat pa →
    let n := memNat s.mem pa 4
    let k := clusterOf s.cur.1
    (1 < n → answers (.done g a) s fun t =>
      advances s t ∧ sameRegs s.me.su t.me.su ∧ samePreds s.me.su t.me.su ∧ sameMemoryBut pa 4 s t ∧ memNat t.mem pa 4 = n - 1 ∧
        (t.cluster k).task.conts = (s.cluster k).task.conts) ∧
    (n = 1 → (s.cluster k).task.conts.length < 16 → answers (.done g a) s fun t =>
      advances s t ∧ sameRegs s.me.su t.me.su ∧ samePreds s.me.su t.me.su ∧ sameMemoryBut pa 4 s t ∧ memNat t.mem pa 4 = 0 ∧
        ∃ r, (t.cluster k).task.conts = (s.cluster k).task.conts ++ [(BitVec.ofNat 64 (memNat s.mem (pa + 8) 8), s.x a, r)]) ∧
    (n = 1 → 16 ≤ (s.cluster k).task.conts.length → answers (.done g a) s (waits s)) ∧
    (n = 0 → answers (.done g a) s (traps 0x48 0 s))

/-- R30, R200: tmsg sends one copy to every live core of its instance that holds the stage, traps with 0x49 when there is none, and waits while one of them has no room;
trecv gives the oldest message and its sender, answers false without one when it has a predicate, and waits under p0. -/
def Obligations.Messages : Prop :=
  ∀ (s : State) (g p : BitVec 3) (d a b : BitVec 5), s.pred g = true →
    let l := stageCores s s.me.kern (s.x a).toNat
    ((s.x a).toNat < 16 → l ≠ [] → (∀ c ∈ l, (s.strand c).mir.st ≠ .saved ∧ (s.core c).q.msgs.length + inFlight s c < 32) → answers (.tmsg g a b) s fun t =>
      advancesQuietly s t ∧ ∀ c ∈ l, ∃ id m, mapFind id t.flights = some (.msg c m) ∧ m.payload = s.x b ∧ m.sender = coreId s s.cur.1) ∧
    ((16 ≤ (s.x a).toNat ∨ l = []) → answers (.tmsg g a b) s (traps 0x49 0 s)) ∧
    ((s.x a).toNat < 16 → (∃ c ∈ l, (s.strand c).mir.st = .saved ∨ 32 ≤ (s.core c).q.msgs.length + inFlight s c) → answers (.tmsg g a b) s (waits s)) ∧
    (∀ (m : Msg) (r : List Msg), s.me.q.msgs = m :: r → (d ≠ a ∨ d = 0) → answers (.trecv g d a p) s fun t =>
      advancesWith d a s t ∧ sameMemory s t ∧ samePredsBut p.toNat s.me.su t.me.su ∧ readsPred p true t ∧ reads d m.payload t ∧ reads a m.sender t ∧ t.me.q.msgs = r) ∧
    (s.me.q.msgs = [] → (d ≠ a ∨ d = 0) → p ≠ 0 → answers (.trecv g d a p) s (writesPred p false s)) ∧
    (s.me.q.msgs = [] → (d ≠ a ∨ d = 0) → p = 0 → answers (.trecv g d a p) s (waits s)) ∧
    (d = a → d ≠ 0 → answers (.trecv g d a p) s (traps 0x02 0 s))

/-- R196, R204, R205, R348, R349: hbeat is progress and nothing else; trig triggers the strand; exit waits for the forked engines and for its accesses, then ends the strand: it has triggered, its core is IDLE
and out of the roster, and its queues are gone; dwait with every producer decided gives 0, or 256 plus the cause of the first faulted one in PROD order (R349), a second one gives what the first
gave, and poison in a tag entry traps with 0x53; the tag entries are in the table of the kernel's die. -/
def Obligations.StrandEnd : Prop :=
  ∀ (s : State) (g p : BitVec 3) (d : BitVec 5), s.pred g = true →
    let named (e : Nat) : Prop := 1 ≤ e ∧ e ≤ 6
    answers (.hbeat g) s (fun t => writesNothing (s.me.su.pc + 4) s t ∧ t.me.wd.prog = true) ∧
    answers (.trig g) s (fun t => t.cur = s.cur ∧ t.me.su.triggered = true ∧ t.me.su.pc = s.me.su.pc + 4 ∧ sameRegs s.me.su t.me.su ∧ samePreds s.me.su t.me.su) ∧
    ((s.me.su.steps ≠ 0 ∨ ∀ e, (s.me.engine e).ring.forked = true → engineIdle s s.cur.1 e = true) → s.allPerformed = true → answers (.exit g) s fun t =>
      (t.core s.cur.1).mir.st = .idle ∧ (t.core s.cur.1).su.triggered = true ∧ (t.core s.cur.1).pr.roster = false ∧ (t.core s.cur.1).q = Queues.reset ∧
        sameRegs s.me.su (t.core s.cur.1).su) ∧
    (s.me.su.steps = 0 → (∃ e, named e ∧ (s.me.engine e).ring.forked = true ∧ engineIdle s s.cur.1 e = false) → answers (.exit g) s (waits s)) ∧
    (s.me.su.steps = 0 → (∀ e, (s.me.engine e).ring.forked = true → engineIdle s s.cur.1 e = true) → s.allPerformed = false → answers (.exit g) s fun t =>
      t.cur = s.cur ∧ sameMemory s t ∧ sameRegs s.me.su t.me.su ∧ samePreds s.me.su t.me.su ∧ t.me.su.pc = s.me.su.pc ∧ t.me.su.wait = .stalled ∧ t.me.su.steps = 1 ∧
        ∀ e, named e → (t.me.engine e).ring.forked = false) ∧
    (s.me.su.steps ≠ 0 → s.allPerformed = false → answers (.exit g) s (waits s)) ∧
    (∀ v, s.me.su.dwaited = some v → answers (.dwait g d p) s fun t =>
      advancesWith d d s t ∧ samePredsBut p.toNat s.me.su t.me.su ∧ sameMemory s t ∧ reads d (BitVec.ofNat 64 v) t ∧ readsPred p (decide (v = 0)) t) ∧
    (s.me.su.dwaited = none → ∀ k, kernelOf s s.me.kern = some k →
      tagMissing s k = none →
      let st (x : Nat) : Nat := producerState s (dieOf s.cur.1) k x
      ((∃ x ∈ k.prods, tagPoisoned s k.die k.ctx k.tagTab x = true) → answers (.dwait g d p) s (traps 0x53 0 s)) ∧
      ((∀ x ∈ k.prods, tagPoisoned s k.die k.ctx k.tagTab x = false) →
        ((∀ x ∈ k.prods, st x = 1) → answers (.dwait g d p) s fun t =>
          advancesWith d d s t ∧ samePredsBut p.toNat s.me.su t.me.su ∧ sameMemory s t ∧ reads d 0 t ∧ readsPred p true t ∧ t.me.su.dwaited = some 0) ∧
        (∀ l x r n, k.prods = l ++ x :: r → (∀ y ∈ l, st y = 1) → (∀ y ∈ r, st y ≠ 0) → st x = 256 + n → answers (.dwait g d p) s fun t =>
          advancesWith d d s t ∧ samePredsBut p.toNat s.me.su t.me.su ∧ sameMemory s t ∧ reads d (BitVec.ofNat 64 (256 + n)) t ∧ readsPred p false t ∧
            t.me.su.dwaited = some (256 + n)) ∧
        (∀ x, x ∈ k.prods → st x = 0 → answers (.dwait g d p) s (waits s))))

/-- R144, R147, R152, R201, R202: on a pool that its context owns, a put sends its entry and a take or peek its request to the strand's shard, and S waits for the
result; control bits that are reserved trap with 0x47, a pool of another context with 0x45. -/
def Obligations.PoolIssue : Prop :=
  ∀ (s : State) (g p : BitVec 3) (d a b : BitVec 5), s.pred g = true →
    let w := s.x a
    let n := w.toNat % 64
    let mine := (s.pool n).owner = some s.me.ctx ∧ poolPart s n = partOf s (dieOf s.cur.1)
    let die := dieOf s.cur.1
    let sent (i : Instr) (f : Flight → Prop) : Prop := answers i s fun t =>
      t.cur = s.cur ∧ sameMemory s t ∧ sameRegs s.me.su t.me.su ∧ samePreds s.me.su t.me.su ∧ t.me.su.pc = s.me.su.pc ∧
        (∃ k dd bb pp, t.me.su.wait = .pool k dd bb pp) ∧ ∃ x, mapFind s.nextId t.flights = some x ∧ f x
    (∀ i ∈ [Instr.pput g d a b, .pputTry g d a b p], (w &&& ~~~0xFFFF003F = 0 → mine → sent i fun x => ∃ e m u, x = .put n die s.cur.1 e m none u ∧
        e.key = (s.x d).extractLsb' 0 32 ∧ e.tie = (s.x d).extractLsb' 32 32 ∧ e.payload = s.x b ∧ m = w.extractLsb' 16 16) ∧
      (w &&& ~~~0xFFFF003F ≠ 0 → answers i s (traps 0x47 0 s)) ∧ (w &&& ~~~0xFFFF003F = 0 → ¬ mine → answers i s (traps 0x45 0 s))) ∧
    ((d ≠ b ∨ d = 0) → w &&& ~~~0x3F = 0 → mine → sent (.ptake g d a b p) fun x => ∃ k : Take, x = .take n die k ∧ k.core = s.cur.1) ∧
    ((d ≠ b ∨ d = 0) → w &&& ~~~0x3F = 0 → mine → sent (.ppeek g d a b p) fun x => ∃ id, x = .peek n die s.cur.1 id) ∧
    (∀ i ∈ [Instr.ptake g d a b p, .ppeek g d a b p], (d = b → d ≠ 0 → answers i s (traps 0x02 0 s)) ∧
      ((d ≠ b ∨ d = 0) → w &&& ~~~0x3F ≠ 0 → answers i s (traps 0x47 0 s)) ∧ ((d ≠ b ∨ d = 0) → w &&& ~~~0x3F = 0 → ¬ mine → answers i s (traps 0x45 0 s)))

/-! ### Engine entries (R18, R63, R168, R171, R262 to R297) -/

namespace Sys2Proof.Claims

/-- An engine looks at an entry that passes the checks of R171, with every token that it waits for there to be popped; the entry is not one
that a restored area has left part done. -/
def entryReady (e : Nat) (w : EWord) (ok : Bool) (round : RF) (s : State) : Prop :=
  s.cur.2 = e ∧ eFault e w ok round = none ∧ waitReady s.me e w.wait = true ∧ mapFind e s.me.prog = none

/-- The engine's head has moved past n words (R15). -/
def passed (e n : Nat) (s t : State) : Prop :=
  (t.me.engine e).ring.head = ((s.me.engine e).ring.head + n) % (2 * (s.me.engine e).ring.size)

/-- What no engine entry touches at issue: S, memory, the vector and coder registers, and whether the engine runs. -/
def engineFrame (e : Nat) (s t : State) : Prop :=
  t.cur = s.cur ∧ t.me.su = s.me.su ∧ sameMemory s t ∧ t.me.v.v = s.me.v.v ∧ t.me.v.m = s.me.v.m ∧ t.me.v.k = s.me.v.k ∧ t.me.v.q = s.me.v.q ∧
    t.me.v.coder = s.me.v.coder ∧ (t.me.engine e).stop = (s.me.engine e).stop

/-- The tokens that an entry waits for have been popped, and no others (R18). -/
def pops (e : Nat) (mask : BitVec 8) (s t : State) : Prop :=
  (∀ b, b < 7 → t.me.tokens b e = if mask.getLsbD b then (s.me.tokens b e).drop 1 else s.me.tokens b e) ∧ t.me.q.net = if mask.getLsbD 7 then s.me.q.net.drop 1 else s.me.q.net
/-- An entry that completes has pushed a token to each engine that it signals and whose queue has room, and to no other (R18, R33). -/
def pushes (e : Nat) (mask : BitVec 8) (s t : State) : Prop :=
  ∀ d, d < 7 → (mask.getLsbD d = false → t.me.tokens e d = s.me.tokens e d) ∧
    (mask.getLsbD d = true → (s.me.tokens e d).length < 15 → ∃ x : Tok, t.me.tokens e d = s.me.tokens e d ++ [x] ∧ x.ready = s.me.cy + 2)

/-- An access entry is under way: its tokens have been popped, nothing has been moved yet, and the head is still at it (R261, R262). -/
def underWay (e : Nat) (i : Instr) (mask : BitVec 8) (s t : State) : Prop :=
  engineFrame e s t ∧ pops e mask s t ∧ (t.me.engine e).ring.head = (s.me.engine e).ring.head ∧ ∃ r : Run, t.me.runOf e = some r ∧ r.ins = i ∧ r.elem = 0
/-- An entry that a restored area has left part done goes on at its element, without a second wait (R261, R332). -/
def goesOn (e : Nat) (i : Instr) (n : Nat) (s t : State) : Prop :=
  engineFrame e s t ∧ t.me.engine e = s.me.engine e ∧ t.me.q = s.me.q ∧ mapFind e t.me.prog = none ∧ ∃ r : Run, t.me.runOf e = some r ∧ r.ins = i ∧ r.elem = n

/-- The 16 bytes of a header in core or cluster memory that an engine can read: their number (R260). -/
def headerThere (e va h : Nat) (s : State) : Prop :=
  spanTrap [spanNear va 16 1] = none ∧ (∃ u, peekRange s (whoCore s s.cur.1 e) va 16 = .ok h u) ∧
    mapFind (nearPa (whoCore s s.cur.1 e) va / 64) s.shadow = none

end Sys2Proof.Claims

/-- R18, R33, R63, R168: enop completes at issue with no other effect than its tokens, those popped and those pushed, and setrm sets its engine's rounding register too. -/
def Obligations.PlainEntries : Prop :=
  ∀ (s : State) (w : EWord),
    (∀ e, e = 1 ∨ e = 2 → entryReady e w (okPlain w) .zero s → answers (.lEnop w) s fun t => engineFrame e s t ∧ passed e 1 s t ∧ pops e w.wait s t ∧ pushes e w.signal s t ∧ t.me.rm = s.me.rm) ∧
    (entryReady 3 w (okPlain w) .zero s → answers (.wEnop w) s fun t => engineFrame 3 s t ∧ passed 3 1 s t ∧ pops 3 w.wait s t ∧ pushes 3 w.signal s t ∧ t.me.rm = s.me.rm) ∧
    (entryReady 5 w (okPlain w) .zero s → s.me.m.leasing = none → answers (.mEnop w) s fun t => engineFrame 5 s t ∧ passed 5 1 s t ∧ pops 5 w.wait s t ∧ pushes 5 w.signal s t ∧ t.me.rm = s.me.rm) ∧
    (entryReady 6 w (okPlain w) .zero s → answers (.cEnop w) s fun t => engineFrame 6 s t ∧ passed 6 1 s t ∧ pops 6 w.wait s t ∧ pushes 6 w.signal s t ∧ t.me.rm = s.me.rm) ∧
    (entryReady 3 w (okPlain w) .set s → answers (.wSetrm w) s fun t => engineFrame 3 s t ∧ passed 3 1 s t ∧ pops 3 w.wait s t ∧ pushes 3 w.signal s t ∧ mapGet 1 3 t.me.rm = w.round.toNat) ∧
    (entryReady 5 w (okPlain w) .set s → s.me.m.leasing = none → answers (.mSetrm w) s fun t => engineFrame 5 s t ∧ passed 5 1 s t ∧ pops 5 w.wait s t ∧ pushes 5 w.signal s t ∧ mapGet 1 5 t.me.rm = w.round.toNat) ∧
    (entryReady 6 w (okPlain w) .set s → answers (.cSetrm w) s fun t => engineFrame 6 s t ∧ passed 6 1 s t ∧ pops 6 w.wait s t ∧ pushes 6 w.signal s t ∧ mapGet 1 6 t.me.rm = w.round.toNat)

/-- R262 to R270: a load command of L0 or L1 whose operands pass the checks of its rule starts, and pops its tokens (R18); it moves nothing in its issue cycle. That a reload's
span ends at the last byte that it touches, and a codebook's table is checked with its header as one span, is the model's reading (log entry 39). -/
def Obligations.LoadCommandsStart : Prop :=
  ∀ (s : State) (e : Nat) (w : EWord) (x1 x2 x3 : BitVec 56) (h : Nat), e = 1 ∨ e = 2 →
    let mine := argF w 39 37 / 4 = e - 1
    let wd := lWidth (argF w 36 33)
    let base := payAddr x1
    let box := boxSpan (boxExtents x2) (boxStrides x3)
    let n := (argF w 32 30 + 1) * payF x3 23 0
    let lst := nearPa (whoCore s s.cur.1 e) (payAddr x2)
    let bk := bookHeader h
    let pk := packHeader h
    (entryReady e w (okLstrm w x1 x2 x3) .zero s → mine → spanTrap [⟨base + wd * box.1, base + wd * box.2 + wd - 1, wd, true, false⟩] = none →
      (w.mod = 1 → spaceOf base = some .core) → answers (.lstrm w x1 x2 x3) s (underWay e (.lstrm w x1 x2 x3) w.wait s)) ∧
    (∀ p, s.cur.2 = e → mapFind e s.me.prog = some p → mine → spanTrap [⟨base + wd * box.1, base + wd * box.2 + wd - 1, wd, true, false⟩] = none →
      (w.mod = 1 → spaceOf base = some .core) → answers (.lstrm w x1 x2 x3) s (goesOn e (.lstrm w x1 x2 x3) p.1 s)) ∧
    (entryReady e w (okLgath w x1 x2 x3) .zero s → mine → watermarkStall s (whoCore s s.cur.1 e) lst (8 * n) = false →
      gatherTrap base wd (payAddr x2) (8 * n) 1 ((List.range (64 * n)).filter fun i => (memNat s.mem lst (8 * n)).testBit i) = none →
      answers (.lgathBm w x1 x2 x3) s (underWay e (.lgathBm w x1 x2 x3) w.wait s)) ∧
    (entryReady e w (okLgath w x1 x2 x3) .zero s → mine → watermarkStall s (whoCore s s.cur.1 e) lst (2 * n) = false → gatherTrap base wd (payAddr x2) (2 * n) 2 (runSelect 0 (runWords s.mem lst n)).1 = none →
      answers (.lgathRl w x1 x2 x3) s (underWay e (.lgathRl w x1 x2 x3) w.wait s)) ∧
    (entryReady e w (okLbmg w x1 x2 x3) .zero s → mine → spanTrap [spanFar base 16 16] = none → (∃ u, peekRange s (whoCore s s.cur.1 e) base 16 = .ok h u) →
      (∃ p u, place s (whoCore s s.cur.1 e) base false false = .ok p u ∧ mapFind (p.pa / 64) s.shadow = none) →
      payF x3 15 0 + payF x3 31 16 + 1 ≤ 65536 → payF x3 15 0 % wd = 0 → (payF x3 31 16 + 1) % wd = 0 →
      bmIndexOk ⟨h % 65536, h / 65536 % 65536, h / 2 ^ 32 % 65536⟩ (payF x2 43 0) = true → bmLblk (payF x2 43 0) + payF x3 47 32 + 1 ≤ h / 2 ^ 32 % 65536 →
      spanTrap [⟨base, bmgEntry x1 x2 (h / 65536 % 65536) (h / 2 ^ 32 % 65536) 0 + 8 * (payF x3 47 32 + 1) - 1, 16, true, true⟩] = none →
      answers (.lbmg w x1 x2 x3) s (underWay e (.lbmg w x1 x2 x3) w.wait s)) ∧
    (entryReady e w (okLcbtab w x1) .zero s → headerThere e base h s → bk.ok = true → argF w 35 12 < (bk.len + 2 ^ bk.glog - 1) / 2 ^ bk.glog →
      spanTrap [spanNear base (bk.toff + argF w 35 12 * 2 ^ bk.w * bk.e + 2 ^ bk.w * bk.e) 1] = none →
      (mapGet XtBank.reset (argF w 39 36) s.me.xt).full = false → (mapGet XtBank.reset (argF w 39 36) s.me.xt).clearedAt ≠ s.me.cy + 1 →
      answers (.lcbtab w x1) s (underWay e (.lcbtab w x1) w.wait s)) ∧
    (entryReady e w (okLcbx w x1) .zero s → mine → headerThere e base h s → bk.ok = true → 64 ≤ (argF w 32 29 + 1) * 2 ^ bk.glog →
      payF x2 31 0 + payF x2 55 32 + 1 ≤ bk.len → spanTrap [spanNear base (16 + ((payF x2 31 0 + (payF x2 55 32 + 1)) * bk.w + 7) / 8) 1] = none →
      answers (.lcbx w x1 x2) s (underWay e (.lcbx w x1 x2) w.wait s)) ∧
    (entryReady e w (okLpkld w x1 x2) .zero s → mine → headerThere e base h s → pk.ok (payF x2 31 0) = true → pk.flags % 2 = 0 →
      spanTrap [spanNear base pk.loads 1] = none → answers (.lpkld w x1 x2) s (underWay e (.lpkld w x1 x2) w.wait s))

/-- R262 to R264, R270, R271: a store command of W whose operands pass the checks of its rule starts, and pops its tokens (R18); it writes nothing in its issue cycle. That the span of a
packed store counts every value that it may hold is the model's reading (log entry 39). -/
def Obligations.StoreCommandsStart : Prop :=
  ∀ (s : State) (w : EWord) (x1 x2 x3 : BitVec 56) (h : Nat),
    let wd := wWidth (argF w 36 33)
    let base := payAddr x1
    let box := boxSpan (boxExtents x2) (boxStrides x3)
    let n := argF w 30 10
    let pk := packHeader h
    (entryReady 3 w (okWstrm w x1 x2 x3) .code s → argF w 36 33 < 8 → spanTrap [⟨base + wd * box.1, base + wd * box.2 + wd - 1, wd, true, false⟩] = none →
      answers (.wstrm w x1 x2 x3) s (underWay 3 (.wstrm w x1 x2 x3) w.wait s)) ∧
    (entryReady 3 w (okWstrm w x1 x2 x3) .code s → 8 ≤ argF w 36 33 →
      spanTrap [span base (8 * blockCode (argF w 36 33) * n) 1, span (payAddr x2) (2 * n) 1, spanNear (payAddr x3) 16 1] = none → payAddr x3 % 16 = 0 →
      headerThere 3 (payAddr x3) h s → h % 2 ^ 32 ≤ h / 2 ^ 32 % 2 ^ 32 → spanTrap [spanNear (payAddr x3) (16 + 8 * (h / 2 ^ 32 % 2 ^ 32)) 1] = none →
      answers (.wstrm w x1 x2 x3) s (underWay 3 (.wstrm w x1 x2 x3) w.wait s)) ∧
    (entryReady 3 w (okWpkst w x1 x2) .code s → headerThere 3 base h s → pk.ok (payF x2 31 0) = true → spanTrap [spanNear base pk.stores 1] = none →
      answers (.wpkst w x1 x2) s (underWay 3 (.wpkst w x1 x2) w.wait s)) ∧
    (entryReady 3 w (okWscat w x1 x2 x3) .code s →
      (payF x3 31 0 = 0 ∨ spanTrap [span base (wWidth (argF w 35 32) * payF x3 31 0) (wWidth (argF w 35 32))] = none) →
      answers (.wscat w x1 x2 x3) s (underWay 3 (.wscat w x1 x2 x3) w.wait s))

/-- R18, R87, R282, R283, R285, R296: under a held lease of its array, with its slots valid, its operands in range and room in the lease, an array command is admitted: its tokens are popped, it joins those
in progress with nothing done, USED and its slots' in-flight counts rise, and no tile and no byte of memory has changed. mlease asks for the designated arrays, and mrel ends the lease. -/
def Obligations.ArrayCommandsStart : Prop :=
  ∀ (s : State) (w : EWord) (x1 x2 : BitVec 56),
    (∀ i n ok round y occ, (i, n, ok, round) ∈ [(Instr.mmul w x1, 2, okMmul w x1, RF.code), (.mmul2 w x1 x2, 3, okMmul2 w x1 x2, .code),
        (.mdrain w x1 x2, 3, okMdrain w x1 x2, .code), (.mzero w, 1, okMzero w, .zero)] → mOp i = some y →
      entryReady 5 w ok round s → s.me.m.halted = false → s.me.m.leasing = none → arraysFull s.me.m.cmds y = false → (∀ x ∈ s.me.m.cmds, x.spacing y ≤ s.me.cy) →
      s.me.m.dvalid = true → (∀ a ∈ y.arrays, a ∈ desigArrays s.me.m.desig) → s.me.m.held = true → s.me.m.granted = none →
      (∀ h ∈ y.handles, ∃ d, handleCheck s s.me.ctx h = some d) → arrayChecks y (y.handles.filterMap fun h => handleCheck s s.me.ctx h) = .inr occ →
      s.me.m.used < 64 → s.me.cy - s.me.m.grant + occ ≤ 8192 → answers i s fun t =>
        engineFrame 5 s t ∧ passed 5 n s t ∧ pops 5 w.wait s t ∧ t.me.m.used = s.me.m.used + 1 ∧ t.acc = s.acc ∧
          (∀ j, (t.ctx s.me.ctx).slot j = { (s.ctx s.me.ctx).slot j with inflight := ((s.ctx s.me.ctx).slot j).inflight + y.handles.countP fun h => h % 4096 = j }) ∧
          ∃ x : MCmd, t.me.m.cmds = s.me.m.cmds ++ [x] ∧ x.ins = i ∧ x.krow = 0 ∧ x.wrow = 0 ∧ x.dmax = 0 ∧ x.start = s.me.cy) ∧
    (entryReady 5 w (okMlease w) .zero s → s.me.m.leasing = none → answers (.mlease w) s fun t =>
      engineFrame 5 s t ∧ passed 5 1 s t ∧ pops 5 w.wait s t ∧ t.me.m.request = true ∧ t.me.m.dvalid = true ∧ t.me.m.desig = argF w 39 38 ∧ t.me.m.leasing = some w.signal ∧ t.me.m.held = false) ∧
    (entryReady 5 w (okPlain w) .zero s → s.me.m.leasing = none → answers (.mrel w) s fun t =>
      engineFrame 5 s t ∧ passed 5 1 s t ∧ pops 5 w.wait s t ∧ t.me.m.held = false ∧ t.me.m.dvalid = false)

/-- R18, R272 to R277: a copy entry whose operands pass the checks of its rule goes to the end of its channel's queue once that holds fewer than eight, and its tokens are popped; nothing is copied yet. -/
def Obligations.CopyEntriesQueue : Prop :=
  ∀ (s : State) (w : EWord) (x1 x2 x3 : BitVec 56) (i : Instr) (n : Nat) (ok : Bool) (round : RF),
    (i, n, ok, round) ∈ [(Instr.ccopy w x1 x2, 3, okCcopy w x1 x2, RF.code), (.cwin w x1 x2 x3, 4, okCwin w x1 x2 x3, .zero), (.cadd w x1 x2, 3, okCadd w x1 x2, .code),
      (.caccld w x1, 2, okCacc w x1, .zero), (.caccst w x1, 2, okCacc w x1, .zero), (.cexp w x1, 2, okCexp w x1, .zero), (.carr w x1, 2, okCarr w x1, .zero)] →
    let ch := argF w 39 36
    let k := clusterOf s.cur.1
    entryReady 6 w (ok && coreFieldsOk i) round s → ((s.cluster k).chan ch).queue.length < 8 → cChecks i = none → bindBar i ((s.cluster k).chan ch).bound ≠ none →
      answers i s fun t => engineFrame 6 s t ∧ passed 6 n s t ∧ pops 6 w.wait s t ∧ t.me.copies = s.me.copies + 1 ∧ t.acc = s.acc ∧
        ∃ x : CopyEnt, ((t.cluster k).chan ch).queue = ((s.cluster k).chan ch).queue ++ [x] ∧ x.ins = i ∧ x.core = s.cur.1 ∧ x.ctx = s.me.ctx ∧ x.live = true ∧
          x.start = (s.cluster k).dcy + 2

/-! ### Vector commands (R209 to R235) -/

namespace Sys2Proof.Claims

/-- V can issue a command: it passes the checks of R171, its tokens and its data-queue elements are there, and its store queue has room (R213). -/
def vReady (form : VForm) (w : VWord) (s : State) : Prop :=
  form.fault s.me.v.active w = none ∧ waitReady s.me 4 w.wait = true ∧ queuesReady s.me (form.queues w) = true ∧
    (form.vd = .dest → isSq w.vd.toNat = true → (mapGet [] (w.vd.toNat - 72) s.me.q.sq).length < 8)

/-- What the issue of a V command leaves alone: S, memory, every vector, mask, broadcast and q register, V.RES and the coder lanes. -/
def vFrame (s t : State) : Prop :=
  t.cur = s.cur ∧ t.me.su = s.me.su ∧ sameMemory s t ∧ t.me.v.v = s.me.v.v ∧ t.me.v.m = s.me.v.m ∧ t.me.v.k = s.me.v.k ∧ t.me.v.q = s.me.v.q ∧
    t.me.v.res = s.me.v.res ∧ t.me.v.coder = s.me.v.coder

/-- The command has issued, and its results land after a latency, with its signals (R214). -/
def landsWith (w : VWord) (lat : Nat) (ts : List Target → Prop) (s t : State) : Prop :=
  vFrame s t ∧ ∃ x ∈ t.me.v.landings, x.due = s.me.cy + lat ∧ x.isEntry = true ∧ x.signal = w.signal ∧ ts x.targets
def lands (w : VWord) (lat : Nat) (ts : List Target) (s t : State) : Prop := landsWith w lat (· = ts) s t

/-- The destination of a lane-wise command, under its mask, from its source lanes. -/
def laneResult (w : VWord) (s : State) (f : W32 → W32 → W32 → W32) : Target :=
  s.me.vdest w.vd.toNat (s.me.v.mask w.mask.toNat)
    (mkLanes fun i => f (laneAt (s.me.vsrc w.va.toNat) i) (laneAt (s.me.vsrc w.vb.toNat) i) (laneAt (s.me.vsrc w.vc.toNat) i))

/-- The integer and bitwise commands of R215 with their forms, cycles (R235) and lane functions. -/
noncomputable def integerLanes (w : VWord) : List (Instr × VForm × Nat × (W32 → W32 → W32)) :=
  [(.vaddI32 w, fBin, 2, fun a b => a + b), (.vsubI32 w, fBin, 2, fun a b => a - b), (.vmulI32 w, fBin, 2, fun a b => a * b),
   (.vmulhI32 w, fBin, 2, fun a b => (a.signExtend 64 * b.signExtend 64).extractLsb' 32 32), (.vmulhN32 w, fBin, 2, fun a b => (a.setWidth 64 * b.setWidth 64).extractLsb' 32 32),
   (.vdivI32 w, fBin, 18, fun a b => if b = 0 then -1 else if a.toInt = -(2 ^ 31) ∧ b = -1 then a else BitVec.ofInt 32 (a.toInt.tdiv b.toInt)),
   (.vdivN32 w, fBin, 18, fun a b => if b = 0 then -1 else BitVec.ofNat 32 (a.toNat / b.toNat)),
   (.vminI32 w, fBin, 2, fun a b => if b.toInt < a.toInt then b else a), (.vmaxI32 w, fBin, 2, fun a b => if a.toInt < b.toInt then b else a),
   (.vminN32 w, fBin, 2, fun a b => if b.toNat < a.toNat then b else a), (.vmaxN32 w, fBin, 2, fun a b => if a.toNat < b.toNat then b else a),
   (.vaddsI32 w, fBin, 2, fun a b => if 2 ^ 31 ≤ a.toInt + b.toInt then 0x7FFFFFFF else if a.toInt + b.toInt < -(2 ^ 31) then 0x80000000 else a + b),
   (.vand w, fBin, 2, fun a b => a &&& b), (.vor w, fBin, 2, fun a b => a ||| b), (.vxor w, fBin, 2, fun a b => a ^^^ b), (.vandn w, fBin, 2, fun a b => a &&& ~~~b),
   (.vsll w, fBin, 2, fun a b => a <<< (b.toNat % 32)), (.vsrl w, fBin, 2, fun a b => a >>> (b.toNat % 32)), (.vsra w, fBin, 2, fun a b => a.sshiftRight (b.toNat % 32)),
   (.vclz w, fUn, 2, fun a _ => if a = 0 then 32 else BitVec.ofNat 32 (31 - Nat.log2 a.toNat)),
   (.vclmul w, fBin, 2, fun a b => (carryless (a.setWidth 64) (b.setWidth 64)).extractLsb' 0 32),
   (.vclmulh w, fBin, 2, fun a b => (carryless (a.setWidth 64) (b.setWidth 64)).extractLsb' 32 32)]

/-- The floating-point commands of R216 and the conversions of R220, in the mode that the round field gives (R62, R64); pk32 rounds the exact value. -/
noncomputable def floatLanes (w : VWord) (r : Nat) : List (Instr × VForm × Nat × (W32 → W32 → W32 → W32)) :=
  [(.vaddF32 w, fBinR, 4, fun a b _ => pk32 r (addV r (un32 a) (un32 b))), (.vsubF32 w, fBinR, 4, fun a b _ => pk32 r (addV r (un32 a) (un32 b).neg)),
   (.vmulF32 w, fBinR, 4, fun a b _ => pk32 r (mulV (un32 a) (un32 b))), (.vfmaF32 w, fTerR, 5, fun a b c => pk32 r (addV r (mulV (un32 a) (un32 b)) (un32 c))),
   (.vfmsF32 w, fTerR, 5, fun a b c => pk32 r (addV r (mulV (un32 a) (un32 b)) (un32 c).neg)), (.vdivF32 w, fBinR, 18, fun a b _ => BitVec.ofNat 32 (divR f32 r (un32 a) (un32 b))),
   (.vsqrtF32 w, fUnR, 18, fun a _ _ => BitVec.ofNat 32 (sqrtR f32 r (un32 a))), (.vexp2F32 w, fUnR, 12, fun a _ _ => BitVec.ofNat 32 (exp2R f32 r (un32 a))),
   (.vminF32 w, fBin, 2, fun a b _ => minF a b), (.vmaxF32 w, fBin, 2, fun a b _ => maxF a b),
   (.vabsF32 w, fUn, 2, fun a _ _ => if isNan (un32 a) then 0x7FC00000 else a &&& 0x7FFFFFFF), (.vnegF32 w, fUn, 2, fun a _ _ => if isNan (un32 a) then 0x7FC00000 else a ^^^ 0x80000000),
   (.vcvtF32I32 w, fUnR, 4, fun a _ _ => pk32 r (ofIntV a.toInt)), (.vcvtI32F32 w, fUnR, 4, fun a _ _ => BitVec.ofInt 32 (toIntSat 32 r (un32 a))),
   (.vcvtF32F16 w, fUn, 4, fun a _ _ => pk32 1 (unpack f16 (a.toNat % 65536))), (.vcvtF32Bf16 w, fUn, 4, fun a _ _ => pk32 1 (unpack bf16 (a.toNat % 65536))),
   (.vcvtF16F32 w, fUnR, 4, fun a _ _ => BitVec.ofNat 32 (pack f16 r (un32 a))), (.vcvtBf16F32 w, fUnR, 4, fun a _ _ => BitVec.ofNat 32 (pack bf16 r (un32 a)))]

/-- The compares of R217: less and equal by value, with NaN neither. -/
noncomputable def compares (w : VWord) : List (Instr × (W32 → W32 → Bool)) :=
  [(.vcmpEqI32 w, fun a b => decide (a = b)), (.vcmpLtI32 w, fun a b => decide (a.toInt < b.toInt)), (.vcmpLeI32 w, fun a b => decide (a.toInt ≤ b.toInt)),
   (.vcmpLtN32 w, fun a b => decide (a.toNat < b.toNat)), (.vcmpEqF32 w, fun a b => eqV (un32 a) (un32 b)), (.vcmpLtF32 w, fun a b => ltV (un32 a) (un32 b)),
   (.vcmpLeF32 w, fun a b => ltV (un32 a) (un32 b) || eqV (un32 a) (un32 b)), (.vcmpUnF32 w, fun a b => isNan (un32 a) || isNan (un32 b))]

end Sys2Proof.Claims

/-- R215, R216, R220, R235: the integer, bitwise and floating-point commands and the conversions, lane by lane, land under their mask after their cycles. The quotient, the square root, the exponential, the
minimum and the maximum are the model's own functions divR, sqrtR, exp2R, minF and maxF; that the exponential evaluated at 320 bits is the correctly rounded one is deduced (log entry 13). -/
def Obligations.VectorLaneResults : Prop :=
  ∀ (s : State) (w : VWord),
    (∀ e ∈ integerLanes w, vReady e.2.1 w s → answers e.1 s (lands w e.2.2.1 [laneResult w s fun a b _ => e.2.2.2 a b] s)) ∧
    (∀ e ∈ floatLanes w (roundMode s.me 4 w.round), vReady e.2.1 w s → answers e.1 s (lands w e.2.2.1 [laneResult w s e.2.2.2] s))

/-- R211, R217, R219: a compare writes a mask that is false outside its own mask, the mask commands combine masks, and vmpop counts one. -/
def Obligations.VectorMaskResults : Prop :=
  ∀ (s : State) (w : VWord),
    let m := s.me.v.mask w.mask.toNat
    let ma := s.me.v.mask (w.va.toNat % 8)
    let mb := s.me.v.mask (w.vb.toNat % 8)
    (∀ e ∈ compares w, vReady fCmp w s → answers e.1 s (landsWith w 2 (fun ts => ∃ x : W64, ts = [.mask w.vd.toNat x] ∧
      ∀ i, i < 64 → x.getLsbD i = (m.getLsbD i && e.2 (laneAt (s.me.vsrc w.va.toNat) i) (laneAt (s.me.vsrc w.vb.toNat) i))) s)) ∧
    (vReady fMask2 w s → answers (.vmand w) s (lands w 2 [.mask w.vd.toNat (ma &&& mb &&& m)] s) ∧ answers (.vmor w) s (lands w 2 [.mask w.vd.toNat ((ma ||| mb) &&& m)] s) ∧
      answers (.vmxor w) s (lands w 2 [.mask w.vd.toNat ((ma ^^^ mb) &&& m)] s) ∧ answers (.vmandn w) s (lands w 2 [.mask w.vd.toNat (ma &&& ~~~mb &&& m)] s)) ∧
    (vReady fMask1 w s → answers (.vmnot w) s (lands w 2 [.mask w.vd.toNat (~~~ma &&& m)] s)) ∧
    (vReady fMpop w s → answers (.vmpop w) s (lands w 2 [laneResult w s fun _ _ _ => BitVec.ofNat 32 ((List.range 64).countP fun j => ma.getLsbD j)] s))

/-- R218, R221 to R223: selection, narrowing, widening, permutes, slides, broadcasts and moves. A narrowing with a given exponent of 255 traps with cause 0x33.
That a widened element with E 254 and the most negative mantissa is minus infinity is the model's choice (log entry 56). -/
def Obligations.VectorMoveResults : Prop :=
  ∀ (s : State) (w : VWord),
    let en := s.me.v.mask w.mask.toNat
    let a := s.me.vsrc w.va.toNat
    let b := s.me.vsrc w.vb.toNat
    let n := w.vc.toNat
    let m := widthOf w.mod.toNat
    let ex (i : Nat) : Nat := (laneAt b (i / 32 * 32)).toNat % 256
    let moves (i : Instr) (form : VForm) (f : Nat → W32) : Prop := vReady form w s → answers i s (lands w 2 [s.me.vdest w.vd.toNat en (mkLanes f)] s)
    (vReady fVsel w s → answers (.vsel w) s (lands w 2 [s.me.vdest w.vd.toNat (BitVec.allOnes 64) (mkLanes fun i => if en.getLsbD i then laneAt a i else laneAt b i)] s)) ∧
    moves (.vperm w) fBin (fun i => if (laneAt b i).toNat < 64 then laneAt a (laneAt b i).toNat else 0) ∧
    moves (.vslideup w) fSlide (fun i => if n ≤ i then laneAt a (i - n) else laneAt b (64 + i - n)) ∧
    moves (.vslidedn w) fSlide (fun i => if i + n < 64 then laneAt a (i + n) else laneAt b (i + n - 64)) ∧
    moves (.vbcast w) fBcast (fun _ => laneAt a w.vb.toNat) ∧
    moves (.vmov w) fMov (fun i => if w.mod = 1 then laneAt a i + BitVec.ofNat 32 i else laneAt a i) ∧
    (vReady fWiden w s → answers (.vwiden w) s (lands w 4 [s.me.vdest w.vd.toNat en (mkLanes fun i => pk32 1 (blockVal m (ex i) (signedOf m (laneAt a i).toNat)))] s)) ∧
    (vReady (fNarrow w) w s → ex 0 ≠ 255 → ex 32 ≠ 255 → isSq w.vd.toNat = false → answers (.vnarrow w) s (landsWith w 4 (fun ts => ∃ r l, ts = [s.me.vdest w.vd.toNat (BitVec.allOnes 64) l] ++ r ∧
      ∀ i, i < 64 → laneAt l i = BitVec.ofInt 32 (narrowElem m (ex i) (roundMode s.me 4 w.round) (laneAt a i)).1) s)) ∧
    (vReady (fNarrow w) w s → ex 0 ≠ 255 → ex 32 ≠ 255 → isSq w.vd.toNat = true → answers (.vnarrow w) s (landsWith w 4 (fun ts => ∃ mant o, ts =
      [.slot (w.vd.toNat - 72) s.me.v.slotId (.block m mant (BitVec.ofNat 8 (ex 0)) (BitVec.ofNat 8 (ex 32)) o)] ∧
        ∀ i, i < 64 → mant.getD i 0 = (narrowElem m (ex i) (roundMode s.me 4 w.round) (laneAt a i)).1) s)) ∧
    (vReady (fNarrow w) w s → (ex 0 = 255 ∨ ex 32 = 255) → answers (.vnarrow w) s fun t => vFrame s t ∧ (t.me.engine 4).stop = .reporting ∧
      ∃ r : FRec, (t.die (dieOf s.cur.1)).queue = (s.die (dieOf s.cur.1)).queue ++ [r] ∧ r.cause = 0x33)

namespace Sys2Proof.Claims

/-- The tree of R224 over 64 places, some absent: place i joins place i + w for w = 32, 16, 8, 4, 2, 1. -/
def tree {α : Type} (f : α → α → α) : Nat → (Nat → Option α) → Nat → Option α
  | 0, x, i => x i
  | n + 1, x, i => match tree f n x i, tree f n x (i + 2 ^ (5 - n)) with
    | none, b => b
    | a, none => a
    | some a, some b => some (f a b)

/-- A value as vtopk writes it: a NaN is the canonical one (R226). -/
def canonOf (x y : W32) : Prop := y = if isNan (un32 x) then 0x7FC00000 else x
/-- R226: whether an element with its index is better than another. -/
def betterOf (x : W32) (i : W32) (y : W32) (j : W32) : Bool :=
  if isNan (un32 x) != isNan (un32 y) then !isNan (un32 x)
  else ltV (un32 y) (un32 x) || (!ltV (un32 x) (un32 y) && decide (i.toNat < j.toNat))

end Sys2Proof.Claims

/-- R224 to R226, R235: the reductions combine the enabled lanes in the fixed tree and give every lane, V.RES and, if asked, the inbox; what vtopk
writes are elements of its state and enabled candidates, none better than the one before it, and every other one of these is better than none of them. -/
def Obligations.VectorReductionResults : Prop :=
  ∀ (s : State) (w : VWord),
    let en := s.me.v.mask w.mask.toNat
    let a := s.me.vsrc w.va.toNat
    let r := roundMode s.me 4 w.round
    let out (x : W32) (y : W64) : List Target := [s.me.vdest w.vd.toNat (BitVec.allOnes 64) (mkLanes fun _ => x), .res y] ++ if w.mod.getLsbD 0 then [.inbox y] else []
    (vReady fRedI32 w s → ∃ x : W32, answers (.vredaddI32 w) s (lands w 6 (out x (x.signExtend 64)) s) ∧
      x = (tree (· + ·) 6 (fun i => if en.getLsbD i then some (laneAt a i) else none) 0).getD 0) ∧
    (vReady fRedF32 w s → ∃ x y : W32, answers (.vredaddF32 w) s (lands w 12 (out x (x.setWidth 64)) s) ∧ (x = y ∨ (isNan (un32 y) = true ∧ x = 0x7FC00000)) ∧
      y = (tree (fun p q => pk32 r (addV r (un32 p) (un32 q))) 6 (fun i => if en.getLsbD i then some (laneAt a i) else none) 0).getD 0) ∧
    (vReady fRedMax w s → ∃ x : W32, answers (.vredmaxF32 w) s (lands w 6 (out x (x.setWidth 64)) s) ∧
      x = (tree maxF 6 (fun i => if en.getLsbD i ∧ isNan (un32 (laneAt a i)) = false then some (if w.mod.getLsbD 1 then laneAt a i &&& 0x7FFFFFFF else laneAt a i) else none) 0).getD 0xFF800000) ∧
    (vReady fRedF64 w s → ∃ y : Nat, answers (.vredaddF64 w) s (lands w 14 ([.res (BitVec.ofNat 64 y)] ++ if w.mod.getLsbD 0 then [.inbox (BitVec.ofNat 64 y)] else []) s) ∧
      y = (tree (fun p q => pack f64 r (addV r (unpack f64 p) (unpack f64 q))) 6 (fun i => if en.getLsbD i then some (pack f64 r (un32 (laneAt a i))) else none) 0).getD 0) ∧
    (vReady fTopk w s → answers (.vtopk w) s (landsWith w 8 (fun ts => ∃ v x, ts = [.vreg (s.me.v.phys w.vd.toNat) v (mkMask fun i => i < w.vc.toNat),
      .vreg (s.me.v.phys (w.vd.toNat + 1)) x (mkMask fun i => i < w.vc.toNat)] ∧
        (∀ i, i < w.vc.toNat →
          (∃ j, j < w.vc.toNat ∧ canonOf (laneAt (s.me.vsrc w.vd.toNat) j) (laneAt v i) ∧ laneAt x i = laneAt (s.me.vsrc (w.vd.toNat + 1)) j) ∨
          (∃ j, j < 64 ∧ en.getLsbD j = true ∧ canonOf (laneAt a j) (laneAt v i) ∧ laneAt x i = laneAt (s.me.vsrc w.vb.toNat) j)) ∧
        (∀ i, i + 1 < w.vc.toNat → betterOf (laneAt v (i + 1)) (laneAt x (i + 1)) (laneAt v i) (laneAt x i) = false) ∧
        let kept (p q : W32) : Prop := (∃ i, i < w.vc.toNat ∧ canonOf p (laneAt v i) ∧ laneAt x i = q) ∨ ∀ i, i < w.vc.toNat → betterOf p q (laneAt v i) (laneAt x i) = false
        (∀ j, j < w.vc.toNat → kept (laneAt (s.me.vsrc w.vd.toNat) j) (laneAt (s.me.vsrc (w.vd.toNat + 1)) j)) ∧
          ∀ j, j < 64 → en.getLsbD j = true → kept (laneAt a j) (laneAt (s.me.vsrc w.vb.toNat) j)) s))

/-- R168, R227 to R230, R234: setrm and enop complete at issue; vtos sends a lane, V.RES or a mask to the inbox; vdefer appends a record for each enabled lane and traps with 0x27 when
they do not fit; vdrain takes the oldest records out; vloop begins its loop, or passes over its body when the trip count is zero. -/
def Obligations.VectorControlResults : Prop :=
  ∀ (s : State) (w : VWord),
    let en := s.me.v.mask w.mask.toNat
    let q := mapGet [] w.mod.toNat s.me.v.defer
    let recs : List DefRec := ((List.range 64).filter fun i => en.getLsbD i).map fun i =>
      ⟨i, laneAt (s.me.vsrc w.va.toNat) i, laneAt (s.me.vsrc w.vb.toNat) i, laneAt (s.me.vsrc w.vc.toNat) i⟩
    let b := w.vd.toNat
    let trip := (mapGet 0#32 (w.va.toNat - 80) s.me.v.k).toNat
    let n := if w.vb = 1 then min q.length 64 else if 64 ≤ q.length then 64 else 0
    (vReady fEnop w s → s.me.v.active = false → answers (.vEnop w) s fun t => vFrame s t ∧ passed 4 1 s t ∧ t.me.rm = s.me.rm) ∧
    (vReady fSetrm w s → s.me.v.active = false → answers (.vSetrm w) s fun t => vFrame s t ∧ passed 4 1 s t ∧ mapGet 1 4 t.me.rm = w.round.toNat) ∧
    (vReady (fVtos w) w s → answers (.vtos w) s (lands w 2 [.inbox (if w.mod = 0 then (laneAt (s.me.vsrc w.va.toNat) w.vb.toNat).setWidth 64
      else if w.mod = 1 then (laneAt (s.me.vsrc w.va.toNat) w.vb.toNat).signExtend 64 else if w.mod = 2 then s.me.v.res else s.me.v.mask (w.va.toNat % 8))] s)) ∧
    (vReady fVdefer w s → q.length + recs.length ≤ 256 → answers (.vdefer w) s fun t => vFrame s t ∧ mapGet [] w.mod.toNat t.me.v.defer = q ++ recs) ∧
    (vReady fVdefer w s → 256 < q.length + recs.length → answers (.vdefer w) s fun t => vFrame s t ∧ t.me.v.defer = s.me.v.defer ∧ (t.me.engine 4).stop = .reporting ∧
      ∃ r : FRec, (t.die (dieOf s.cur.1)).queue = (s.die (dieOf s.cur.1)).queue ++ [r] ∧ r.cause = 0x27) ∧
    (vReady fVdrain w s → answers (.vdrain w) s fun t => mapGet [] w.mod.toNat t.me.v.defer = q.drop n ∧ landsWith w 4 (fun ts => ts.length = 5 ∧
      .mask w.va.toNat (mkMask fun i => i < n) ∈ ts ∧
        .vreg (s.me.v.phys (w.vd.toNat + 1)) (mkLanes fun i => (q.getD i ⟨0, 0, 0, 0⟩).a) (mkMask fun i => i < n) ∈ ts) s t) ∧
    (vReady fVloop w s → s.me.v.active = false → trip ≤ 2 ^ 32 - 8 → 1 + b ≤ (s.me.engine 4).ring.size → wordsPresent s s.cur.1 4 (1 + b) = true → ringPoisoned s s.cur.1 4 1 b = false →
      (∀ i, i < b → (ringWord s s.cur.1 4 (1 + i)).toNat / 2 ^ 6 % 8 ≤ w.mod.toNat ∧ (ringWord s s.cur.1 4 (1 + i)).toNat / 2 ^ 40 % 256 ≠ 4) →
      (trip = 0 → answers (.vloop w) s fun t => vFrame s t ∧ passed 4 (1 + b) s t) ∧
      (0 < trip → answers (.vloop w) s fun t => vFrame s t ∧ t.me.v.active = true ∧ t.me.v.trip = trip ∧ t.me.v.body = b ∧ t.me.v.stages = w.mod.toNat + 1))

/-! ### The coder and the q registers (R236 to R257) -/

namespace Sys2Proof.Claims

/-- Nothing stops a read of the core's own memory: no watermark, no poison, no unseen write of another unit. -/
def coreClean (s : State) : Prop :=
  ∀ o, watermarkStall s (whoCore s s.cur.1 2) (coreBase s.cur.1 + o) 1 = false ∧ rangePoisoned s (coreBase s.cur.1 + o) 1 = false ∧
    mapFind ((coreBase s.cur.1 + o) / 64) s.shadow = none

/-- A landing brings new states of exactly the enabled lanes. -/
def bringsLanes (s : State) (w : VWord) (P : Nat → CoderLane → Prop) (ts : List Target) : Prop :=
  ∃ ls ws init, .coder ls ws init ∈ ts ∧ ls.map (·.1) = enabledLanes s.me w ∧ ∀ e ∈ ls, P e.1 e.2

end Sys2Proof.Claims

/-- R236, R250 to R255: with no earlier lane command still to land, the coder's commands start, finish, report, checkpoint and roll back exactly their enabled lanes; a lane in the wrong mode
traps with 0x3E, and a rollback without a fitting checkpoint with 0x3F. -/
def Obligations.CoderLaneResults : Prop :=
  ∀ (s : State) (w : VWord), coderBusy s.me.v = false → coreClean s →
    let en := enabledLanes s.me w
    let a (i : Nat) : Nat := (laneAt (s.me.csrc w.va.toNat) i).toNat
    let slot (l : CoderLane) : CkSlot := if w.mod = 0 then l.slot0 else l.slot1
    let stops (i : Instr) (cause : Nat) : Prop := answers i s fun t => vFrame s t ∧ (t.me.engine 4).stop = .reporting ∧
      ∃ r : FRec, (t.die (dieOf s.cur.1)).queue = (s.die (dieOf s.cur.1)).queue ++ [r] ∧ r.cause = cause
    (vReady fRcinitD w s → (∀ i ∈ en, baseOk (a i) = true ∧ (codedHeader s s.cur.1 (a i)).ok = true ∧ ∀ o, a i ≤ o → o < a i + 16 + min 4 (codedHeader s s.cur.1 (a i)).bytes → fullAt s (coreBase s.cur.1 + o) = true) →
      answers (.rcinitD w) s (landsWith w 8 (bringsLanes s w fun i l => l.mode = 1 ∧ l.base.toNat = a i ∧ l.count.toNat = (codedHeader s s.cur.1 (a i)).syms ∧ l.range = 0xFFFFFFFF) s)) ∧
    (vReady fRcinitE w s → (∀ i ∈ en, a i % 16 = 0 ∧ a i + 16 + (laneAt (s.me.csrc w.vb.toNat) i).toNat ≤ 524288) →
      answers (.rcinitE w) s (landsWith w 8 (bringsLanes s w fun i l => l.mode = 2 ∧ l.low = 0 ∧ l.range = 0xFFFFFFFF ∧ l.count = 0 ∧ l.pos.toNat = a i + 16 ∧ l.flags = 0 ∧ l.slot0.valid = false ∧ l.slot1.valid = false) s)) ∧
    (vReady fRcfin w s → answers (.rcfin w) s (landsWith w 8 (bringsLanes s w fun _ l => l.mode ≠ 1 ∧ l.mode ≠ 2) s)) ∧
    (vReady fRcstat w s → w.mod = 3 → answers (.rcstat w) s (landsWith w 2 (fun ts => s.me.vdest w.vd.toNat (s.me.v.mask w.mask.toNat) (mkLanes fun i => (s.me.lane i).count) ∈ ts) s)) ∧
    (vReady fCkpt w s → answers (.rckpt w) s (landsWith w 2 (bringsLanes s w fun i l => (slot l).valid = true ∧ (slot l).mode = (s.me.lane i).mode ∧ (slot l).low = (s.me.lane i).low ∧ (slot l).pos = (s.me.lane i).pos ∧
      (slot l).range = (s.me.lane i).range ∧ (slot l).count = (s.me.lane i).count) s)) ∧
    (vReady fCkpt w s → (∀ i ∈ en, (slot (s.me.lane i)).valid = true ∧ (slot (s.me.lane i)).mode = (s.me.lane i).mode) → answers (.rcroll w) s (landsWith w 2 (bringsLanes s w fun i l =>
      let x := slot (s.me.lane i)
      l.low = x.low ∧ l.pos = x.pos ∧ l.range = x.range ∧ l.count = x.count ∧ l.mode = (s.me.lane i).mode) s)) ∧
    (vReady fCkpt w s → (∃ i ∈ en, (slot (s.me.lane i)).valid = false) → stops (.rcroll w) 0x3F) ∧
    (vReady fRcenc w s → (∃ i ∈ en, (s.me.lane i).mode ≠ 2) → stops (.rcenc w) 0x3E)

/-- R241, R244, R253: a decode or encode decision acts on the enabled lanes that have not ended, counting a decoder's symbols down and an encoder's up; it delivers the symbol that CODE falls on, 0 in
a lane that has ended, and divides RANGE, which stands so where no byte is needed then (RANGE at least 2^24). A decoder's next bytes are full, the tables in use are not
empty, and every symbol is below its table's N. -/
def Obligations.CoderDecisionResults : Prop :=
  ∀ (s : State) (w : VWord), coderBusy s.me.v = false → coreClean s →
    let en := enabledLanes s.me w
    let b (i : Nat) : W32 := laneAt (s.me.csrc w.vb.toNat) i
    let a (i : Nat) : W32 := laneAt (s.me.csrc w.va.toNat) i
    let bytesThere := ∀ i ∈ en, (s.me.lane i).mode = 1 ∧ ∀ o ∈ nextBytes (s.me.lane i), fullAt s (coreBase s.cur.1 + o) = true
    let down := bringsLanes s w fun i l => l.mode = 1 ∧ (decides (s.me.lane i) = true → l.count = (s.me.lane i).count - 1) ∧ (decides (s.me.lane i) = false → l = s.me.lane i)
    let up := bringsLanes s w fun i l => l.mode = 2 ∧ (fEnded (s.me.lane i).flags = false → l.count = (s.me.lane i).count + 1) ∧ (fEnded (s.me.lane i).flags = true → l = s.me.lane i)
    let tabD (i : Nat) : Nat := if w.mod = 0 then w.vb.toNat else (a i).toNat % 16
    let tabE (i : Nat) : Nat := if w.mod = 0 then w.vb.toNat else (b i).toNat % 16
    let range (i : Nat) : Nat := (s.me.lane i).range.toNat
    let code (i : Nat) : Nat := (s.me.lane i).low.toNat % 2 ^ 32
    let delivers (sym : Nat → Nat) (ts : List Target) : Prop :=
      s.me.vdest w.vd.toNat (s.me.v.mask w.mask.toNat) (mkLanes fun i => if i ∈ en ∧ decides (s.me.lane i) = true then BitVec.ofNat 32 (sym i) else 0) ∈ ts
    let divides (acts : CoderLane → Bool) (rng low : Nat → Nat) (n : Nat) : List Target → Prop :=
      bringsLanes s w fun i l => acts (s.me.lane i) = true → 2 ^ 24 ≤ rng i → rng i < 2 ^ 32 → l.range.toNat = rng i ∧ l.low.toNat % 2 ^ n = low i
    let clamp (x : W32) : Nat := if x.toInt < 1 then 1 else if 32767 < x.toInt then 32767 else x.toNat
    let boundD (i : Nat) : Nat := range i / 2 ^ 15 * clamp (laneAt (s.me.vsrc w.va.toNat) i)
    let boundE (i : Nat) : Nat := range i / 2 ^ 15 * clamp (laneAt (s.me.vsrc w.vb.toNat) i)
    let zero (i : Nat) : Prop := (a i).getLsbD 0 = false
    let table (i : Nat) : CdfBank := (s.me.cdf (tabD i)).bank
    let sym (i : Nat) : Nat := symbolOf (table i).c (min (code i / (range i / 2 ^ 15)) 32767)
    let lo (i : Nat) : Nat := (table i).c.getD (sym i) 0
    let hi (i : Nat) : Nat := (table i).c.getD (sym i + 1) 0
    (vReady fRcdec w s → bytesThere → answers (.rcdec w) s (landsWith w 4 (fun ts => down ts ∧ delivers (fun i => if code i < boundD i then 0 else 1) ts ∧
      divides decides (fun i => if code i < boundD i then boundD i else range i - boundD i) (fun i => if code i < boundD i then code i else code i - boundD i) 32 ts) s)) ∧
    (vReady (fRcdecm w) w s → bytesThere → (s.me.cdf w.vb.toNat).bank.n ≠ 0 ∨ w.mod ≠ 0 → (∀ i ∈ en, (s.me.cdf (tabD i)).bank.n ≠ 0) → answers (.rcdecm w) s (landsWith w 6 (fun ts => down ts ∧ delivers sym ts ∧
      divides decides (fun i => if sym i + 1 = (table i).n then range i - range i / 2 ^ 15 * lo i else range i / 2 ^ 15 * (hi i - lo i)) (fun i => (code i + 2 ^ 32 - range i / 2 ^ 15 * lo i) % 2 ^ 32) 32 ts) s)) ∧
    (vReady fRcenc w s → (∀ i ∈ en, (s.me.lane i).mode = 2) → answers (.rcenc w) s (landsWith w 4 (fun ts => up ts ∧ ∀ f : Nat → Nat × Nat,
      (∀ i, (zero i → f i = (boundE i, (s.me.lane i).low.toNat)) ∧ (¬ zero i → f i = (range i - boundE i, ((s.me.lane i).low.toNat + boundE i) % 2 ^ 33))) →
        divides (fun l => !fEnded l.flags) (fun i => (f i).1) (fun i => (f i).2) 33 ts) s)) ∧
    (vReady (fRcencm w) w s → (∀ i ∈ en, (s.me.lane i).mode = 2) → (s.me.cdf w.vb.toNat).bank.n ≠ 0 ∨ w.mod ≠ 0 → (∀ i ∈ en, (a i).toNat < (s.me.cdf (tabE i)).bank.n) →
      answers (.rcencm w) s (landsWith w 6 up s))

/-- R240, R246, R256: qmov clamps to 1 to 32767, qadapt moves a probability towards the bit, qsq squashes, and cdfsw loads a valid image into a slot's inactive bank and switches to it later. -/
def Obligations.ProbabilityResults : Prop :=
  ∀ (s : State) (w : VWord),
    let en := s.me.v.mask w.mask.toNat
    let a (i : Nat) : W32 := laneAt (s.me.csrc w.va.toNat) i
    let b (i : Nat) : W32 := laneAt (s.me.csrc w.vb.toNat) i
    let clamp (x : W32) : Nat := if x.toInt < 1 then 1 else if 32767 < x.toInt then 32767 else x.toNat
    let sh := w.mod.toNat + 1
    let gives (i : Instr) (lat : Nat) (f : Nat → Nat) : Prop := answers i s (landsWith w lat (fun ts => s.me.vdest w.vd.toNat en (mkLanes fun i => BitVec.ofNat 32 (f i)) ∈ ts) s)
    let off := (a 0).toNat
    let f (o n : Nat) : Nat := memNat s.mem (coreBase s.cur.1 + off + o) n
    let n := f 0 2
    (vReady fQun w s → gives (.qmov w) 2 (fun i => clamp (a i)) ∧ gives (.qsq w) 4 (fun i => squash (a i).toInt)) ∧
    (vReady fQadapt w s → gives (.qadapt w) 2 (fun i => if (b i).getLsbD 0 then clamp (a i) - clamp (a i) / 2 ^ sh else clamp (a i) + (32768 - clamp (a i)) / 2 ^ sh)) ∧
    (vReady fCdfsw w s → coreClean s → (s.me.cdf w.vb.toNat).switch = none → baseOk off = true → 2 ≤ n → n ≤ 256 → f 4 12 = 0 → off + 18 + 2 * n ≤ 524288 →
      (∀ o, off ≤ o → o < off + 18 + 2 * n → fullAt s (coreBase s.cur.1 + o) = true) → f 16 2 = 0 → f (16 + 2 * n) 2 = 32768 → (∀ j, j < n → f (16 + 2 * j) 2 < f (18 + 2 * j) 2) →
      answers (.cdfsw w) s fun t => vFrame s t ∧ (t.me.cdf w.vb.toNat).switch = some (s.me.cy + (4 + (18 + 2 * n + 63) / 64)) ∧ (t.me.cdf w.vb.toNat).active = (s.me.cdf w.vb.toNat).active ∧
        (t.me.cdf w.vb.toNat).bank = (s.me.cdf w.vb.toNat).bank ∧
        (if (s.me.cdf w.vb.toNat).active = 0 then (t.me.cdf w.vb.toNat).bank1 else (t.me.cdf w.vb.toNat).bank0) = ⟨n, f 2 2, (List.range (n + 1)).map fun j => f (16 + 2 * j) 2⟩)

/-! ### What the units of a core do by themselves (R18 to R24, R30, R182, R214, R246, R262 to R271) -/

namespace Sys2Proof.Claims

/-- Nothing outside one core has changed. -/
def onlyCore (c : Nat) (s t : State) : Prop := t = s.setCore c (t.core c)

/-- The physical address of a core-window address of a core. -/
def ownAt (c va : Nat) : Nat := coreBase c + (va - 0x000FFFFFFFF80000)

/-- An access of n bytes by an engine at a core-window address meets nothing: no watermark, no poison, no unseen write. -/
def nearClean (s : State) (c e va n : Nat) : Prop :=
  spaceOf va = some .core ∧ watermarkStall s (whoCore s c e) (ownAt c va) n = false ∧ rangePoisoned s (ownAt c va) n = false ∧
    mapFind (ownAt c va / 64) s.shadow = none

end Sys2Proof.Claims

/-- R214, R24: the oldest due result of V lands: a vector in its enabled lanes and no others, a mask, a broadcast register, V.RES, or an entry of the inbox. -/
def Obligations.ResultsLand : Prop :=
  ∀ (s : State) (c : Nat) (x : Landing) (r : List Landing),
    let k := s.core c
    k.v.landings = x :: r → x.due ≤ k.cy → x.held = false →
    (∀ (n : Nat) (l : Lanes) (en : W64), x.targets = [.vreg n l en] → answers (.resultLanding c) s fun t =>
      sameMemory s t ∧ (t.core c).su = k.su ∧ (t.core c).v.landings = r ∧ (∀ j, j ≠ n → mapGet [] j (t.core c).v.v = mapGet [] j k.v.v) ∧
        ∀ i, i < 64 → laneAt (mapGet [] n (t.core c).v.v) i = if en.getLsbD i then laneAt l i else laneAt (mapGet [] n k.v.v) i) ∧
    (∀ (n : Nat) (m : W64), n ≠ 0 → x.targets = [.mask n m] → answers (.resultLanding c) s fun t =>
      sameMemory s t ∧ (t.core c).v.landings = r ∧ (t.core c).v.mask n = m ∧ ∀ j, j ≠ n → (t.core c).v.mask j = k.v.mask j) ∧
    (∀ (n : Nat) (v : W32), x.targets = [.kreg n v] → answers (.resultLanding c) s fun t =>
      sameMemory s t ∧ (t.core c).v.landings = r ∧ mapGet 0#32 n (t.core c).v.k = v ∧ ∀ j, j ≠ n → mapGet 0#32 j (t.core c).v.k = mapGet 0#32 j k.v.k) ∧
    (∀ v : W64, x.targets = [.res v] → answers (.resultLanding c) s fun t => sameMemory s t ∧ (t.core c).v.landings = r ∧ (t.core c).v.res = v) ∧
    (∀ v : W64, x.targets = [.inbox v] → x.isEntry = true → k.v.push = [] → k.q.inbox.length < 16 → answers (.resultLanding c) s fun t =>
      sameMemory s t ∧ (t.core c).v.landings = r ∧ ∃ e : InEnt, (t.core c).q.inbox = k.q.inbox ++ [e] ∧ e.value = v ∧ e.tag = 4)

/-- R18, R20, R23, R30, R182, R246: held pushes go through once there is room, a pending CDF switch and the end of a park happen at their cycles, a message enters the queue
of its core, and a completed phase of the barrier network puts a token at each of its members. -/
def Obligations.HeldPushesAndWaits : Prop :=
  ∀ (s : State) (c : Nat),
    let k := s.core c
    (∀ (e d : Nat) (h : HeldTok), (k.engine e).held.find? (fun h => h.dest = d) = some h → (k.tokens e d).length < 15 → answers (.tokenPush c e d) s fun t =>
      onlyCore c s t ∧ (t.core c).tokens e d = k.tokens e d ++ [⟨h.rel, k.cy + 2⟩] ∧ ((t.core c).engine e).held = (k.engine e).held.erase h) ∧
    (∀ (x : InEnt) (g : BitVec 8), k.v.push = [(some x, g)] → k.q.inbox.length < 16 → answers (.inboxPush c) s fun t =>
      onlyCore c s t ∧ (t.core c).v.push = [] ∧ (t.core c).q.inbox = k.q.inbox ++ [⟨x.value, x.tag, k.cy + 2⟩]) ∧
    (∀ n d : Nat, (k.cdf n).switch = some d → d ≤ k.cy → answers (.cdfBankSwitch c n) s fun t =>
      onlyCore c s t ∧ ((t.core c).cdf n).active = 1 - (k.cdf n).active ∧ ((t.core c).cdf n).switch = none ∧ ((t.core c).cdf n).bank0 = (k.cdf n).bank0 ∧
        ((t.core c).cdf n).bank1 = (k.cdf n).bank1) ∧
    (∀ m d : Nat, k.su.wait = .park m d → answers (.parkWake c) s fun t => onlyCore c s t ∧ (t.core c).su = { k.su with wait := .idle, next := max k.su.next (k.cy + 1) }) ∧
    (∀ m d : Nat, k.su.wait = .park m d → d ≤ k.cy → answers (.parkTimeout c) s fun t => onlyCore c s t ∧ (t.core c).su = { k.su with wait := .idle, next := max k.su.next (k.cy + 1) }) ∧
    (∀ id (m : Msg), mapFind id s.flights = some (.msg c m) → (k.mir.st ≠ .idle ∨ k.launched = true) → answers (.messageArrival id) s fun t =>
      (t.core c).q.msgs = k.q.msgs ++ [m] ∧ mapFind id t.flights = none ∧ sameMemory s t) ∧
    (∀ (cl : Nat) (p : NetPhase), (s.cluster cl).phases = [p] → p.due ≤ (s.cluster cl).dcy → c < 1280 → c ∈ p.members → p.members.Nodup → (∀ j ∈ p.members, (s.strand j).q.net.length < 15) →
      answers (.networkCompletionToken cl) s fun t => (t.core c).q.net = k.q.net ++ [⟨p.rel, k.cy⟩] ∧ (t.cluster cl).phases = [] ∧ sameMemory s t)

/-- R262, R263, R268, R311: a stream's next element enters its data queue, a table that has been read fills its bank, and W takes an element from its store
queue and later writes its enabled lanes, here one lane of 32 bits or less. All in the core's own memory. That lcbtab reads its table in the step that fills the bank is the model's
choice (log entry 39). -/
def Obligations.AccessStepsMoveElements : Prop :=
  ∀ (s : State) (c : Nat),
    let k := s.core c
    (∀ (e : Nat) (r : Run) (w : EWord) (x1 x2 x3 : BitVec 56), k.runOf e = some r → r.ins = .lstrm w x1 x2 x3 → w.mod ≠ 1 → r.next ≤ k.cy → r.far ≤ s.now → (k.engine e).stop = .run →
      r.elem < elemsOf ((boxExtents x2).foldl (· * ·) 1) →
      let q := argF w 39 37
      let wd := lWidth (argF w 36 33)
      let l := boxLanes (payAddr x1) wd r.elem (boxExtents x2) (boxStrides x3)
      (mapGet [] q k.q.dq).length < 8 → (∀ a ∈ l, nearClean s c e a wd) → answers (.dqElementPush c e) s fun t =>
        sameMemory s t ∧ (t.core c).su = k.su ∧
          mapGet [] q (t.core c).q.dq = mapGet [] q k.q.dq ++ [⟨padLanes (l.map fun a => lConv (argF w 36 33) (memNat s.mem (ownAt c a) wd)), k.cy⟩]) ∧
    (∀ (e bank : Nat) (r : Run) (w : EWord) (x1 : BitVec 56) (x : Nat), k.runOf e = some r → (e = 1 ∨ (e = 2 ∧ k.runOf 1 = none)) → r.ins = .lcbtab w x1 → argF w 39 36 = bank →
      r.next ≤ k.cy → (k.engine e).stop = .run →
      let bytes := if r.vals.getD 1 0 = 9 then 4 else 2
      readRange s (whoCore s c e) w.cls.toNat (r.vals.getD 3 0) (r.vals.getD 2 0 * bytes) = .ok x s → answers (.xtBankFull c bank) s fun t =>
        sameMemory s t ∧ (mapGet XtBank.reset bank (t.core c).xt).full = true ∧ (mapGet XtBank.reset bank (t.core c).xt).blk = r.vals.getD 0 0 ∧
          (mapGet XtBank.reset bank (t.core c).xt).entries = (List.range (r.vals.getD 2 0)).map fun i => BitVec.ofNat 32 (x / 256 ^ (bytes * i) % 256 ^ bytes)) ∧
    (∀ (r : Run) (w : EWord) (x1 x2 x3 : BitVec 56), k.runOf 3 = some r → r.ins = .wstrm w x1 x2 x3 → argF w 36 33 < 8 → (k.engine 3).stop = .run → k.mir.st = .running →
      let q := argF w 39 38
      let wd := wWidth (argF w 36 33)
      let l := boxLanes (payAddr x1) wd r.elem (boxExtents x2) (boxStrides x3)
      (∀ (d : SqSlot) (tl : List SqSlot) (v : Lanes) (en : W64), r.pend = [] → r.next ≤ k.cy → r.elem < elemsOf ((boxExtents x2).foldl (· * ·) 1) →
        mapGet [] q k.q.sq = d :: tl → d.data = some (.plain v en) → answers (.sqElementPop c) s fun t =>
          sameMemory s t ∧ mapGet [] q (t.core c).q.sq = tl ∧ ∃ u due, (t.core c).runOf 3 = some u ∧ u.pend = [(due, [.plain v en])] ∧ u.elem = r.elem) ∧
      (∀ (due : Machine.Lat) (i : Nat) (v : Lanes) (en : W64) (a : Nat) (x : W32), r.pend = [(due, [.plain v en])] → due.over k.cy s.now = true → enabledOf v en l.length = [(i, x)] → l.getD i 0 = a → nearClean s c 3 a wd →
        answers (.sqElementPop c) s fun t => sameMemoryBut (ownAt c a) wd s t ∧ memNat t.mem (ownAt c a) wd = wConv (argF w 36 33) r.mode x % 256 ^ wd))

/-! ### The matrix arrays and the copy channels by themselves (R272 to R279, R283 to R292, R335) -/

namespace Sys2Proof.Claims

/-- One command is in progress on M, which has not stopped. -/
def onlyCmd (c : Nat) (x : MCmd) (s : State) : Prop := (s.core c).m.cmds = [x] ∧ (s.core c).m.halted = false

/-- A tile element after a block sum (R287): the old value, scaled or dropped before the first block, plus the block's contribution, rounded. -/
def blockSum (s : State) (x : MCmd) (key : Nat) (a b : Nat × List Int) : W32 :=
  let start := argF x.op.w 37 36
  let sh : Int := if x.krow = 0 ∧ start = 2 then argF x.op.w 35 31 else 0
  pk32 x.mode (addV x.mode (if x.krow = 0 ∧ start = 0 then .zero false else scaleV (-sh) (un32 (accAt s key))) (contribution (x.a 0) x.b a b))

end Sys2Proof.Claims

/-- R283, R284, R287 to R292: the arbiter grants a lone request for free arrays (those of the designation and, as the model deduces, those on which stopped commands resume, log entry 62); a block's sums enter the due row group of the tile; operands that arrive late let their
command go on (in pages that the core's own table holds, or windows); a multiplication leaves at its drain start, and a drain after its last row has been stored, with its atomic
maximum if asked for. -/
def Obligations.ArraySteps : Prop :=
  ∀ (s : State) (c : Nat),
    let k := s.core c
    let u := s.cluster (clusterOf c)
    (k.m.request = true → (∀ i, i < 8 → clusterOf c * 8 + i ≠ c → (s.core (clusterOf c * 8 + i)).m.request = false) →
      (k.m.wants 0 = true → u.mx0.core = none ∧ u.mx0.freeAt ≤ u.dcy) → (k.m.wants 1 = true → u.mx1.core = none ∧ u.mx1.freeAt ≤ u.dcy) →
      answers (.leaseGrant (clusterOf c)) s fun t => (t.core c).m = { k.m with request := false, held := true, granted := some (k.cy + 4), grant := k.cy, used := 0, age := 0 } ∧
        sameMemory s t ∧ (k.m.wants 0 = true → (t.cluster (clusterOf c)).mx0.core = some c) ∧ (k.m.wants 1 = true → (t.cluster (clusterOf c)).mx1.core = some c)) ∧
    (∀ (x : MCmd) (w : EWord) (x1 : BitVec 56), onlyCmd c x s → x.ins = .mmul w x1 → x.writeDue k.cy = true → x.late = false → s.accPoison = [] → x.fetched = x.krow / 32 + 1 →
      let b := (x.blk.drop (x.a 0).rows).map (blockMant x.b)
      let g := x.wrow / 8
      let key (i j : Nat) : Nat := accKey (clusterOf c) (argF w 39 39) (argF w 38 38) i j
      b.length ≤ 256 → answers (.mmulBlockWrite c) s fun t => sameMemory s t ∧ (t.core c).su = k.su ∧
        ∀ i j, 8 * g ≤ i → i < 8 * g + 8 → i < (x.a 0).rows → j < b.length →
          accAt t (key i j) = blockSum s x (key i j) (blockMant (x.a 0) (x.blk.getD i (0, 0))) (b.getD j (0, []))) ∧
    (∀ (x : MCmd) (l : List (Nat × Nat)), onlyCmd c x s → x.writeDue k.cy = true → x.late = true → s.accPoison = [] → x.fetched ≠ x.krow / 32 + 1 → fetchBlock s c x = .ok l s →
      (∀ e ∈ x.descs, ∀ a ∈ operandPieces e.2 (argF x.op.w 30 16 + x.krow / 32), clusterOnly s (whoCore s c 5) a.1 = false) →
      answers (.operandFetchArrival c) s fun t => sameMemory s t ∧ ∃ z : MCmd, (t.core c).m.cmds = [z] ∧ z.ins = x.ins ∧ z.late = false ∧ z.fetched = x.krow / 32 + 1 ∧ z.blk = l) ∧
    (∀ x : MCmd, onlyCmd c x s → x.drainDue k.cy = true → answers (.mmulDrainStart c) s fun t => sameMemory s t ∧ t.acc = s.acc ∧ (t.core c).m.cmds = []) ∧
    (∀ x : MCmd, onlyCmd c x s → x.endDue s c = true → argF x.op.w 36 36 = 0 → answers (.mdrainComplete c) s fun t => sameMemory s t ∧ t.acc = s.acc ∧ (t.core c).m.cmds = []) ∧
    (∀ x : MCmd, onlyCmd c x s → x.endDue s c = true → argF x.op.w 36 36 = 1 → nearClean s c 5 x.op.maxaddr 4 → answers (.mdrainComplete c) s fun t =>
      sameMemoryBut (ownAt c x.op.maxaddr) 4 s t ∧ t.acc = s.acc ∧ (t.core c).m.cmds = [] ∧
        memNat t.mem (ownAt c x.op.maxaddr) 4 = max (memNat s.mem (ownAt c x.op.maxaddr) 4) x.dmax.toNat)

/-- R89, R272 to R279, R335: a channel starts the entry at the head of its queue, a stream with its watermark at the destination; the next bytes land and the watermark passes them; a row
enters a tile; an entry that is done leaves the channel; and the system copy port puts an entry that passes its checks into the queue. -/
def Obligations.ChannelSteps : Prop :=
  ∀ (s : State) (cl ch : Nat) (e : CopyEnt) (q : List CopyEnt),
    let u := s.cluster cl
    let x := u.chan ch
    let core (n : Nat) : Nat := coreBase (cl * 8 + n)
    (x.queue = e :: q → x.running = false → x.stop = .run → e.start ≤ u.dcy → answers (.copyChannelStart cl ch) s fun t =>
      let y := (t.cluster cl).chan ch
      sameMemory s t ∧ y.queue = e :: q ∧ y.running = true ∧ y.done = 0 ∧
        ∀ d n len fp bar, cKind e.ins = some (.stream d n len fp bar) → y.active = true ∧ y.wm = BitVec.ofNat 64 d ∧ y.last = BitVec.ofNat 64 (d + len)) ∧
    (∀ (w : EWord) (x1 x2 : BitVec 56), x.queue = e :: q → x.running = true → x.stop = .run → x.next ≤ u.dcy → x.far ≤ s.now → e.ins = .ccopy w x1 x2 → payF x1 55 52 = 0 → payF x2 54 54 = 0 → payF x2 55 55 = 0 → x.fp = [] →
      spaceOf (payAddr x1 + x.done) = some .core → spaceOf (payAddr x1) = some .core → spaceOf (payAddr x2) = some .cluster → spaceOf (payAddr x2 + x.done) = some .cluster →
      payAddr x1 % 64 = 0 → payAddr x2 % 64 = 0 → x.done % 64 = 0 → x.done < 16 * argF w 29 10 →
      let n := min 64 (16 * argF w 29 10 - x.done)
      let ps := core (argF w 32 30) + (payAddr x1 + x.done - 0x000FFFFFFFF80000)
      let pd := clusterBase cl + (payAddr x2 + x.done - 0x000FFFFFFF000000)
      watermarkStall s (whoChan cl ch e.ctx (cl * 8 + argF w 32 30)) ps n = false → watermarkStall s (whoChan cl ch e.ctx (cl * 8 + argF w 35 33)) pd n = false →
      rangePoisoned s ps n = false → mapFind (ps / 64) s.shadow = none → mapFind (pd / 64) s.shadow = none → answers (.copyBytesLand cl ch) s fun t =>
        sameMemoryBut pd n s t ∧ memBytes t.mem pd n = memBytes s.mem ps n ∧ ((t.cluster cl).chan ch).done = x.done + n ∧
          ((t.cluster cl).chan ch).wm = BitVec.ofNat 64 (payAddr x2 + x.done + n)) ∧
    (∀ (w : EWord) (x1 : BitVec 56) (v : Nat), x.queue = e :: q → x.running = true → x.stop = .run → x.next ≤ u.dcy → x.far ≤ s.now → e.ins = .caccld w x1 → u.cbanks = [] → u.mbanks = [] → x.done ≤ argF w 22 15 →
      readRange s (whoChan cl ch e.ctx (cl * 8 + argF w 35 33)) w.cls.toNat (payAddr x1 + x.done * 1024) 1024 = .ok v s → answers (.accRowWrite cl ch) s fun t =>
        sameMemory s t ∧ ((t.cluster cl).chan ch).done = x.done + 1 ∧
          ∀ j, j < 256 → accAt t (accKey cl (argF w 32 32) (argF w 31 31) (argF w 30 23 + x.done) j) = BitVec.ofNat 32 (v / 256 ^ (4 * j))) ∧
    (∀ d n len bar, x.queue = e :: q → x.running = true → x.stop = .run → cKind e.ins = some (.stream d n len false bar) → len ≤ x.done → x.fp = [] → x.landed = 0 → answers (.copyComplete cl ch) s fun t =>
      sameMemory s t ∧ ((t.cluster cl).chan ch).queue.map (·.ins) = q.map (·.ins) ∧ ((t.cluster cl).chan ch).running = false ∧ ((t.cluster cl).chan ch).active = false ∧
        (e.live = true → e.port = false → (t.core e.core).copies = (s.core e.core).copies - 1)) ∧
    (∀ (w : W64) (i : Instr) (f : EWord) (ok : Bool) (round : RF), windowOpen s.sys = true → u.cpState ≠ 1 → w.getLsbD 0 = true →
      portEntry (mapGet 0 0 u.ent) [mapGet 0 1 u.ent, mapGet 0 2 u.ent, mapGet 0 3 u.ent] = .inr i → portForm i = some (f, ok, round) → portCause i = none → (cKind i).isSome = true →
      argF f 39 36 = ch → x.queue.length < 8 → bindBar i x.bound ≠ none → answers (.cpGo cl w) s fun t =>
        sameMemory s t ∧ (t.cluster cl).cpState = 1 ∧ ∃ y : CopyEnt, ((t.cluster cl).chan ch).queue = x.queue ++ [y] ∧ y.ins = i ∧ y.port = true ∧ y.ctx = w.toNat / 2 ^ 32 % 65536)

/-! ### The front end by itself (R126, R127, R129 to R135) -/

/-- R126, R127, R129 to R135: one instruction goes into the buffer of every bound core; a vote without a join takes the largest group to its address and detaches the others, or detaches those
that leave; a join whose timeout has passed goes on with the cores parked at it bound; an idle front end restarts at the address that holds the most parked cores; a fetched line arrives. -/
def Obligations.FrontEndSteps : Prop :=
  ∀ (s : State) (cl : Nat),
    let f := (s.cluster cl).fe
    let g := groupOf s cl
    let v := votesOf s cl
    (∀ l : PLine, f.idle = false → f.voting = none → f.failed = 0 → g ≠ [] → (∀ c ∈ g, (s.core c).pr.ibuf.length < 32) → f.line = some l → l.line = f.pc.toNat / 64 →
      let w := l.words.getD (f.pc.toNat / 4 % 16) 0
      answers (.frontEndMulticast cl) s fun t => sameMemory s t ∧ (∀ c ∈ g, (t.core c).pr.ibuf = (s.core c).pr.ibuf ++ [⟨f.pc, w, 0⟩] ∧ (t.core c).su = (s.core c).su) ∧
        (isVoting (decodeScalar w) = true → (t.cluster cl).fe.voting = some f.pc) ∧
        (isVoting (decodeScalar w) = false → (t.cluster cl).fe.voting = none ∧ (t.cluster cl).fe.pc = streamNext (decodeScalar w) f.pc)) ∧
    (∀ (d : Nat) (x : W64), f.joining = none → f.resolveAt = some d → d ≤ (s.cluster cl).dcy → f.voting = some x → (∀ e ∈ v, e.2.join = false ∧ e.2.leaves = false) → v ≠ [] →
      answers (.voteResolve cl) s fun t => ∃ a : W64, (∀ b : W64, (v.filter fun e => e.2.next = b).length ≤ (v.filter fun e => e.2.next = a).length) ∧
        (t.cluster cl).fe.pc = a ∧ (t.cluster cl).fe.voting = none ∧ sameMemory s t ∧
          ∀ e ∈ v, sameRegs (s.core e.1).su (t.core e.1).su ∧ (t.core e.1).su.pc = (s.core e.1).su.pc ∧ (t.core e.1).pr.bound = decide (e.2.next = a)) ∧
    (∀ (d : Nat) (x : W64), f.joining = none → f.resolveAt = some d → d ≤ (s.cluster cl).dcy → f.voting = some x → (∀ e ∈ v, e.2.join = false) → (∃ e ∈ v, e.2.leaves = true) →
      answers (.voteResolve cl) s fun t => (t.cluster cl).fe.pc = x + 4 ∧ (t.cluster cl).fe.voting = none ∧ sameMemory s t ∧ ∀ e ∈ v, (t.core e.1).pr.bound = !e.2.leaves) ∧
    (∀ (d : Nat) (x : W64), f.joining = some (x, some d) → d ≤ (s.cluster cl).dcy → (∀ c ∈ parkedAt s cl x, (s.core c).pr.bound = false) →
      answers (.joinTimeout cl) s fun t => (t.cluster cl).fe.pc = x + 4 ∧ (t.cluster cl).fe.joining = none ∧ (t.cluster cl).fe.log = (x :: f.log).take 16 ∧
        (t.cluster cl).fe.count = f.count + 1 ∧ sameMemory s t ∧
          ∀ c ∈ parkedAt s cl x, (t.core c).pr.bound = true ∧ (t.core c).su.pc = x + 4 ∧ ((s.core c).pr.joinPd ≠ 0 → (t.core c).su.pred (s.core c).pr.joinPd.toNat = true)) ∧
    (f.idle = true → rosterOf s cl ≠ [] → g = [] → (∀ c ∈ rosterOf s cl, ∃ y : W64, (s.core c).su.wait = .join y.toNat) → answers (.frontEndRestart cl) s fun t =>
      ∃ x : W64, (∀ y : W64, (parkedAt s cl y).length ≤ (parkedAt s cl x).length) ∧ (t.cluster cl).fe.idle = false ∧ (t.cluster cl).fe.pc = x + 4 ∧ sameMemory s t ∧
        ∀ c ∈ parkedAt s cl x, (t.core c).pr.bound = true ∧ (t.core c).su.pc = x + 4) ∧
    (∀ (p : Nat) (r : Fetch), p < 9 → (s.cluster cl).fetches = [r] → r.party = p → r.due ≤ (s.cluster cl).dcy → r.far ≤ s.now → reqOf s cl p = some r.line → rangePoisoned s (r.phys * 64) 64 = false →
      watermarkStall s (whoFetch s cl p) (r.phys * 64) 64 = false → mapFind r.phys (s.cluster cl).cache = none → answers (.fetchLineArrival cl p) s fun t =>
        let l : PLine := ⟨r.line, lineWords (memBytes s.mem (r.phys * 64) 64)⟩
        sameMemory s t ∧ reqOf t cl p = none ∧ (p = 0 → (t.cluster cl).fe.line = some l) ∧ (0 < p → (t.core (cl * 8 + p - 1)).pr.pbuf.head? = some l))

/-! ### The pool units (R139 to R155) -/

namespace Sys2Proof.Claims

/-- Something of the given kind is on its way. -/
def underWayTo (t : State) (f : Flight) : Prop := ∃ k, mapFind k t.flights = some f

end Sys2Proof.Claims

/-- R139, R144, R146, R151, R155: a put that finds room waits in the arrival buffer of its shard and is answered, a put that finds none is refused; an insert that every shard has counted becomes
present in rank order; an entry moves between shards while its old one holds it; a pool is allocated to a context and becomes free again; a result reaches S. The model's choices here: a freed
pool is as at reset, with BOUND, LIMIT, CAP and NOREBAL (log entry 22), an allocation's number holds the heap areas (log entry 51), and a migration that finds its entry gone counts as effected
(log entry 38). -/
def Obligations.PoolInserts : Prop :=
  ∀ (s : State) (p d id : Nat),
    let sh := s.shard p d
    (∀ (c u : Nat) (e : PEnt) (m : BitVec 16) (pd : Option (BitVec 3)), mapFind id s.flights = some (.put p d c e m pd u) → sh.stopped = false →
      (hasRoom s p d = true → answers (.poolPutArrival id) s fun t => underWayTo t (.result c id none true 0) ∧ (t.shard p d).accepted = sh.accepted + 1 ∧ (t.shard p d).ents = sh.ents ∧
        ∃ a : Arr, (t.shard p d).arr = sh.arr ++ [a] ∧ a.from_ = none ∧ a.ent = { e with o := d, n := sh.accepted % 2 ^ 62 }) ∧
      (hasRoom s p d = false → answers (.poolPutArrival id) s fun t => t.shard p d = sh ∧
        ∃ cause, underWayTo t (.result c id none false cause) ∧ (∀ a b q, (s.core c).su.wait = .pool 0 a b q → cause = 0x44))) ∧
    (∀ (j ins : Nat) (a : Arr), mapFind id s.flights = some (.count p d j ins true) → (s.pool p).round = none → sh.arr.find? (fun x => x.id = ins) = some a → a.from_ = none →
      answers (.insertCounted id) s fun t => (t.shard p d).ents = rankInsert a.ent sh.ents ∧ (t.shard p d).effected = sh.effected + 1 ∧
        (t.shard p d).arr = sh.arr.filter fun x => x.id ≠ ins) ∧
    (∀ (j ins : Nat) (e : PEnt), mapFind id s.flights = some (.migrate p j d e ins) → j ≠ d → (s.pool p).round = none →
      let held (x : PEnt) : Bool := x.o = e.o && x.n = e.n
      ((s.shard p j).ents.any held = true → answers (.migrationTransfer id) s fun t => (t.shard p d).ents = rankInsert e sh.ents ∧ (t.shard p d).effected = sh.effected + 1 ∧
        (t.shard p j).ents = (s.shard p j).ents.filter fun x => !held x) ∧
      ((s.shard p j).ents.any held = false → answers (.migrationTransfer id) s fun t => (t.shard p d).ents = sh.ents ∧ (t.shard p d).effected = sh.effected + 1 ∧ (t.shard p j).ents = (s.shard p j).ents)) ∧
    (∀ g : Nat, p < 64 → (s.pool p).owner = none → answers (.poolAllocate p g) s fun t => (t.pool p).owner = some (g % 65536) ∧ (t.pool p).bound = (s.pool p).bound ∧
      (∀ i, i < 4 → t.shard p i = { Shard.reset with area := g / 2 ^ (16 + 52 * i) % 2 ^ 52 }) ∧ ⟨s.now + 256, .poolSnapshot p⟩ ∈ t.evq) ∧
    (∀ x : Nat, (s.pool p).owner = some x → answers (.poolFree p) s fun t => t.pool p = Pool.reset ∧ ∀ e ∈ t.evq, e.ins ≠ .poolSnapshot p) ∧
    (∀ (c i a b q : Nat) (e : PEnt), mapFind id s.flights = some (.result c i (some e) true 0) → (s.core c).su.wait = .pool 2 a b q → 0 < a → a < 32 → 0 < b → b < 32 → a ≠ b → 0 < q → q < 8 →
      answers (.poolResultReturn id) s fun t => (t.core c).su.reg a = e.tie ++ e.key ∧ (t.core c).su.reg b = e.payload ∧ (t.core c).su.pred q = true ∧
        (t.core c).su.pc = (s.core c).su.pc + 4 ∧ (t.core c).su.wait = .idle ∧ sameMemory s t ∧ ∀ r, r ≠ a → r ≠ b → (t.core c).su.reg r = (s.core c).su.reg r)

/-- R145 to R151: every period the shards publish snapshots, which replace earlier ones; takes queue at their shard and at the one they are forwarded to, are served with its best entry while fewer
than BOUND better ones may exist elsewhere, and are promoted when they have waited too long; a forced round stops the shards and serves its take with the best entry found. That a take keeps
the BOUND and LIMIT it met at its arrival is the model's choice (log entry 38). -/
def Obligations.PoolTakes : Prop :=
  ∀ (s : State) (p d id : Nat),
    let sh := s.shard p d
    (∀ x : Nat, (s.pool p).owner = some x → answers (.poolSnapshot p) s fun t => ⟨s.now + 256, .poolSnapshot p⟩ ∈ t.evq ∧
      ∀ j ∈ poolDies s p, (t.shard p j).served = (0 :: (s.shard p j).served).take 5 ∧ (t.shard p j).ents = (s.shard p j).ents ∧
        ∀ i ∈ poolDies s p, i ≠ j → underWayTo t (.snap p j i ⟨(s.shard p j).ents.take 16, (s.shard p j).effected⟩ none)) ∧
    (∀ (j : Nat) (n : Snap), mapFind id s.flights = some (.snap p j d n none) → answers (.snapshotArrival id) s fun t =>
      mapGet ⟨[], 0⟩ j (t.shard p d).snaps = n ∧ (∀ i, i ≠ j → mapGet ⟨[], 0⟩ i (t.shard p d).snaps = mapGet ⟨[], 0⟩ i sh.snaps) ∧ (t.shard p d).ents = sh.ents) ∧
    (∀ k : Take, mapFind id s.flights = some (.take p d k) → answers (.takeArrival id) s fun t =>
      (t.shard p d).loc = queueTake { k with at_ := s.now, bound := (s.pool p).bound, limit := (s.pool p).starve } sh.loc ∧ .event (.takeDecide p d) ∈ t.agenda) ∧
    (∀ c i : Nat, mapFind id s.flights = some (.peek p d c i) → answers (.takeArrival id) s fun t =>
      t.pools = s.pools ∧ underWayTo t (.result c id sh.ents.head? sh.ents.head?.isSome 0)) ∧
    (∀ k : Take, mapFind id s.flights = some (.take p d k) → answers (.takeForwardArrival id) s fun t =>
      (t.shard p d).fwd = queueTake { k with at_ := s.now, kept := false, bound := (s.pool p).bound, limit := (s.pool p).starve } sh.fwd ∧
        ⟨s.now + (s.pool p).starve + 1, .takePromotion p d⟩ ∈ t.evq) ∧
    (∀ (k : Take) (x : PEnt) (r : List PEnt), (s.pool p).round = none → sh.refused = none → sh.decided ≠ s.now + 1 → nextTake s.now sh = some k → sh.ents = x :: r → countBetter s p d k.bound x < k.bound →
      answers (.takeDecide p d) s fun t => (t.shard p d).ents = r ∧ underWayTo t (.result k.core k.id (some x) true 0) ∧ (∀ y ∈ (t.shard p d).loc ++ (t.shard p d).fwd, y.id ≠ k.id)) ∧
    (let due (k : Take) : Bool := !k.promoted && decide (k.limit < s.now - k.at_)
     sh.fwd.any due = true → answers (.takePromotion p d) s fun t => (t.shard p d).fwd = sh.fwd.map fun k => if due k then { k with promoted := true, retry := s.now + 1 } else k) ∧
    (∀ r : Round, (s.pool p).round = some r → r.began + legCy r.shard d ≤ s.now → sh.arr ≠ [] → answers (.putStopArrival p d) s fun t => (t.shard p d).stopped = true ∧ (t.shard p d).ents = sh.ents) ∧
    (∀ (k : Take) (j : Nat), mapFind id s.flights = some (.serve p d k j) → answers (.forcedRoundServe id) s fun t =>
      (t.shard p d).ents = sh.ents.drop 1 ∧ (t.pool p).round = none ∧ underWayTo t (.result k.core k.id sh.ents.head? sh.ents.head?.isSome 0))

/-! ### Packets, scoreboards, the start of strands (R9, R125, R172, R336 to R355) -/

namespace Sys2Proof.Claims

/-- A die's command processor is at a packet of n words after a header whose opcode field is in place. -/
def atPacket (s : State) (d : Nat) (w : W64) (n : Nat) : Prop :=
  (s.die d).cp.running = true ∧ (s.die d).cp.due ≤ s.now ∧ (s.die d).cp.skipping = 0 ∧ w.toNat / 2 ^ 48 % 256 = n

/-- A field of a 128-byte launch descriptor (R340). -/
def descField (x o n : Nat) : Nat := x / 256 ^ o % 256 ^ n

/-- A descriptor that passes the checks of R341, without a stage map, without producers or streams, for a rectangle inside the partition, whose tag is free, whose
dies have room, whose stages lie in the rectangle and whose descriptor slots have nothing in flight. -/
def launchable (s : State) (d desc x : Nat) (r : Rect) : Prop :=
  let f := descField x
  desc % 16 = 0 ∧ f 0 8 % 4 = 0 ∧ f 8 8 % 8 = 0 ∧ f 24 4 % 8 = 0 ∧ f 28 1 ≤ 47 ∧ f 29 1 = 0 ∧ f 30 1 = 0 ∧ f 56 8 = 0 ∧ rectOk s d r = true ∧
    tagBusy s (s.die d).cp.ctx (f 32 2) false = false ∧ boardFull s r.dies = false ∧ stagesOutside (imageOf s (s.die d).cp.ctx (BitVec.ofNat 64 (f 0 8))) r.size = false ∧
    handlesFree s (s.die d).cp.ctx (BitVec.ofNat 64 (f 0 8)) = true

/-- A kernel entry with a descriptor's fields is on the scoreboard under the next sequence number, none of its strands has triggered or ended, and the stream goes on. -/
def entered (s : State) (d x : Nat) (r : Rect) (off : Nat) (t : State) : Prop :=
  let f := descField x
  t.sys.seq = s.sys.seq + 1 ∧ (t.die d).cp.off = off ∧ (t.die d).cp.running = true ∧ ∃ k : Kernel, mapFind (s.sys.seq + 1) t.sb = some (.kernel k) ∧ k.tag = f 32 2 ∧ k.ctx = (s.die d).cp.ctx ∧
    k.dies = r.dies ∧ k.cfirst = r.cfirst ∧ k.clast = r.clast ∧ k.entry = BitVec.ofNat 64 (f 0 8) ∧ k.level = max (f 28 1) (s.ctx (s.die d).cp.ctx).floor ∧ k.issued = false ∧
    k.args = (List.range 8).map (fun i => BitVec.ofNat 64 (f (64 + 8 * i) 8)) ∧ k.running = 8 * (r.dies.length * (r.clast + 1 - r.cfirst)) ∧ k.toTrigger = k.running ∧ k.tagState = 1

end Sys2Proof.Claims

/-- R337 to R345: each packet has its effect on the stream: END ends it, LOOP and LOOPI open a loop or pass over one of count 0, ENDLOOP goes back or on, SKIPIF compares, WAIT waits for its tag (until a kernel
has retired, or a transfer has landed), LAUNCH, LAUNCHI and XFER enter the scoreboard, but for a LAUNCHI with NCLUS 0, which enters nothing; an unassigned bit that is set, a CMP of 4 to 7 among them, stops
the stream with error 1. That the tag table is read through the context's translation is the model's reading (log entry 46). -/
def Obligations.PacketEffects : Prop :=
  ∀ (s : State) (d : Nat) (w a b c : W64),
    let p := (s.die d).cp
    let off := p.off
    let moves (i : Instr) (P : CmdProc → Prop) : Prop := answers i s fun t => P (t.die d).cp ∧ (t.die d).cp.last = off
    (atPacket s d w 0 → w.toNat % 2 ^ 48 = 0 → p.loops = [] → moves (.pktEnd d w) fun q => q.running = false ∧ q.state = 1) ∧
    (let bad (i : Instr) : Prop := moves i fun q => q.running = false ∧ q.state = 2 ∧ q.err = 1
      let unassigned := w.toNat % 2 ^ 48 ≠ 0
      (atPacket s d w 0 → unassigned → bad (.pktEnd d w) ∧ bad (.pktEndloop d w)) ∧ (atPacket s d w 1 → unassigned → bad (.pktLaunch d w a) ∧ bad (.pktLoopi d w a)) ∧
      (atPacket s d w 2 → unassigned → bad (.pktLaunchi d w a b)) ∧ (atPacket s d w 0 → 2 ^ 32 ≤ w.toNat % 2 ^ 48 → bad (.pktLoop d w)) ∧
      (atPacket s d w 2 → 2 ^ 16 ≤ w.toNat % 2 ^ 45 ∨ 4 ≤ w.toNat / 2 ^ 45 % 8 → bad (.pktSkipif d w a b)) ∧ (atPacket s d w 0 → 2 ^ 16 ≤ w.toNat % 2 ^ 48 → bad (.pktWait d w)) ∧
      (atPacket s d w 3 → 2 ^ 16 ≤ w.toNat % 2 ^ 48 ∨ b.toNat / 2 ^ 23 % 2 ≠ 0 ∨ b.toNat / 2 ^ 48 ≠ 0 ∨ (rectOf c.toNat).zero = false → bad (.pktXfer d w a b c))) ∧
    (atPacket s d w 0 → w.toNat % 2 ^ 48 < 2 ^ 32 → p.loops.length < 4 → (w.toNat % 2 ^ 32 ≠ 0 → moves (.pktLoop d w) fun q => q.loops = (w.toNat % 2 ^ 32, off + 8) :: p.loops ∧ q.off = off + 8) ∧
      (w.toNat % 2 ^ 32 = 0 → moves (.pktLoop d w) fun q => q.skipping = 1 ∧ q.off = off + 8)) ∧
    (∀ n, atPacket s d w 1 → w.toNat % 2 ^ 48 = 0 → p.loops.length < 4 → cpRead s d a.toNat 4 = some n →
      (n ≠ 0 → moves (.pktLoopi d w a) fun q => q.loops = (n, off + 16) :: p.loops ∧ q.off = off + 16) ∧ (n = 0 → moves (.pktLoopi d w a) fun q => q.skipping = 1 ∧ q.off = off + 16)) ∧
    (∀ n x r, atPacket s d w 0 → w.toNat % 2 ^ 48 = 0 → p.loops = (n, x) :: r → (1 < n → moves (.pktEndloop d w) fun q => q.loops = (n - 1, x) :: r ∧ q.off = x) ∧
      (n ≤ 1 → moves (.pktEndloop d w) fun q => q.loops = r ∧ q.off = off + 8)) ∧
    (∀ x, atPacket s d w 2 → w.toNat % 2 ^ 45 < 2 ^ 16 → cpRead s d a.toNat 8 = some x → p.loops = [] →
      let jump := 8 * (w.toNat % 2 ^ 16)
      let skips (holds : Prop) [Decidable holds] : Prop := moves (.pktSkipif d w a b) fun q => q.off = off + 24 + if holds then jump else 0
      (w.toNat / 2 ^ 45 % 8 = 0 → skips (x = b.toNat)) ∧ (w.toNat / 2 ^ 45 % 8 = 1 → skips (x ≠ b.toNat)) ∧ (w.toNat / 2 ^ 45 % 8 = 2 → skips (x < b.toNat)) ∧
        (w.toNat / 2 ^ 45 % 8 = 3 → skips (b.toNat ≤ x))) ∧
    (atPacket s d w 0 → w.toNat % 2 ^ 48 < 2 ^ 16 → (mapFind (w.toNat % 2 ^ 16) p.named = none → (cpRead s d (p.tagTab.toNat + 2 * (w.toNat % 2 ^ 16)) 2).isSome = true →
        (waitOther s d p.ctx p.tagTab (w.toNat % 2 ^ 16) = false → moves (.pktWait d w) fun q => q.off = off + 8) ∧
        (waitOther s d p.ctx p.tagTab (w.toNat % 2 ^ 16) = true → answers (.pktWait d w) s fun u => (u.die d).cp = { p with due := s.now + 1 })) ∧
      (∀ q t, mapFind (w.toNat % 2 ^ 16) p.named = some (q, false, t) →
        ((mapFind q s.sb).isSome = true ∨ s.now < t → answers (.pktWait d w) s fun u => (u.die d).cp = { p with due := s.now + 1 }) ∧
        (mapFind q s.sb = none → t ≤ s.now → moves (.pktWait d w) fun q => q.off = off + 8)) ∧
      (∀ q t, mapFind (w.toNat % 2 ^ 16) p.named = some (q, true, t) →
        (xferLanded s q = false → answers (.pktWait d w) s fun u => (u.die d).cp = { p with due := s.now + 1 }) ∧ (xferLanded s q = true → moves (.pktWait d w) fun q => q.off = off + 8))) ∧
    (∀ x, atPacket s d w 1 → w.toNat % 2 ^ 48 = 0 → cpRead s d a.toNat 128 = some x → launchable s d a.toNat x (rectOf (descField x 16 8)) →
      answers (.pktLaunch d w a) s (entered s d x (rectOf (descField x 16 8)) (off + 16))) ∧
    (∀ x z, atPacket s d w 2 → w.toNat % 2 ^ 48 = 0 → cpRead s d b.toNat 8 = some z → z < 2 ^ 16 → 1 ≤ z % 256 → z % 256 ≤ 40 → 1 ≤ z / 256 → z / 256 ≤ 4 → cpRead s d a.toNat 128 = some x →
      launchable s d a.toNat x (launchRect x (some z)) → answers (.pktLaunchi d w a b) s (entered s d x (launchRect x (some z)) (off + 24))) ∧
    (∀ x z, atPacket s d w 2 → w.toNat % 2 ^ 48 = 0 → cpRead s d b.toNat 8 = some z → z < 2 ^ 16 → z % 256 = 0 → 1 ≤ z / 256 → z / 256 ≤ 4 → cpRead s d a.toNat 128 = some x →
      let f := descField x
      a.toNat % 16 = 0 → f 0 8 % 4 = 0 → f 8 8 % 8 = 0 → f 24 4 % 8 = 0 → f 28 1 ≤ 47 → f 29 1 ≤ 4 → f 30 1 ≤ 4 → tagBusy s p.ctx (f 32 2) false = false → answers (.pktLaunchi d w a b) s fun t =>
        t.sb = s.sb ∧ t.sys.seq = s.sys.seq ∧ (t.die d).cp.off = off + 24 ∧ (t.die d).cp.running = true ∧ ∃ n, mapFind (f 32 2) (t.die d).cp.named = some (0, false, n)) ∧
    (atPacket s d w 3 → w.toNat % 2 ^ 48 < 2 ^ 16 → b.toNat / 2 ^ 23 % 2 = 0 → b.toNat / 2 ^ 48 = 0 → (rectOf c.toNat).zero = true → rectOk s d (rectOf c.toNat) = true →
      b.toNat % 2 ^ 23 + b.toNat / 2 ^ 24 % 2 ^ 24 ≤ 2 ^ 23 → tagBusy s p.ctx (w.toNat % 2 ^ 16) true = false → boardFull s (rectOf c.toNat).dies = false → answers (.pktXfer d w a b c) s fun t =>
        (t.die d).cp.off = off + 32 ∧ ∃ x : Xfer, mapFind (s.sys.seq + 1) t.sb = some (.xfer x) ∧ x.tag = w.toNat % 2 ^ 16 ∧ x.ctx = p.ctx ∧ x.src = a ∧ x.off = b.toNat % 2 ^ 23 ∧
          x.len = b.toNat / 2 ^ 24 % 2 ^ 24 ∧ x.dies = (rectOf c.toNat).dies ∧ x.copying = false ∧ x.resident = false)

/-- R172, R337, R341 to R354: a ready entry issues and holds its cores; a strand starts with its arguments in s1 on, every other register zero, at the entry's address, in the front end's group; waiting ages an
entry; a transfer copies and lands; an entry retires; streams start and resume; throttling begins with its window; and the watchdog counts intervals without progress and fires at LIMIT.
The pulse of the start, 58 after the issue, is the model's choice (log entry 29), deduced from the 60 cycles that R355 gives to the first instruction. -/
def Obligations.ScoreboardSteps : Prop :=
  ∀ (s : State) (q c d : Nat),
    (∀ k : Kernel, kernelOf s q = some k → k.issued = false → kernelReady s k = true → answers (.entryIssue q) s fun t => kernelOf t q = some { k with issued := true } ∧
      ∀ i ∈ k.cores, (t.core i).launched = true ∧ (t.core i).kern = q ∧ ⟨s.now + 58, .strandStart i⟩ ∈ t.evq) ∧
    (∀ k : Kernel, kernelOf s (s.core c).kern = some k → (s.core c).launched = true → k.args.length ≤ 31 → answers (.strandStart c) s fun t => sameMemory s t ∧
      (t.core c).mir.st = .running ∧ (t.core c).su.pc = k.entry ∧ (t.core c).ctx = k.ctx ∧ (t.core c).pr.bound = true ∧ (t.core c).pr.roster = true ∧ (t.core c).su.inh = false ∧
        (t.core c).q = { Queues.reset with msgs := (s.core c).q.msgs } ∧ (∀ r, (t.core c).su.reg (r + 1) = k.args.getD r 0) ∧ (∀ r, 0 < r → r < 8 → (t.core c).su.pred r = false) ∧
          (t.cluster (clusterOf c)).fe.pc = k.entry ∧ (t.cluster (clusterOf c)).fe.idle = false) ∧
    (∀ k : Kernel, kernelOf s q = some k → k.issued = false → k.since < s.now → (s.now - k.since) % 65536 = 0 → answers (.priorityAgeing q) s fun t =>
      ∃ e, kernelOf t q = some { k with eff := e } ∧ k.eff ≤ e + 1 ∧ ageFloor s q k ≤ e ∧ (ageFloor s q k < k.eff → e = k.eff - 1)) ∧
    (∀ x : Xfer, mapFind q s.sb = some (.xfer x) → x.copying = false → x.resident = false → x.due ≤ s.now → xferHeld s q x = false → answers (.xferCopyStart q) s fun t =>
      (∃ y : Xfer, mapFind q t.sb = some (.xfer y) ∧ y.copying = true ∧ y.resident = false) ∧
        ∀ j y, j < q → mapFind j t.sb = some (.xfer y) → y.ctx ≠ x.ctx ∨ y.tag ≠ x.tag) ∧
    (∀ (x : Xfer) (pa n i : Nat), mapFind q s.sb = some (.xfer x) → x.copying = true → x.resident = false → x.held = false → x.due ≤ s.now → x.dies = [i] → x.clast = x.cfirst →
      xferSource s x = .inr [(pa, 0, n)] → answers (.xferResident q) s fun t => (∃ y : Xfer, mapFind q t.sb = some (.xfer y) ∧ y.resident = true) ∧
        memBytes t.mem (clusterBase (i * 40 + x.cfirst) + x.off) n = memBytes s.mem pa n ∧ sameMemoryBut (clusterBase (i * 40 + x.cfirst) + x.off) n s t) ∧
    (∀ (k : Kernel) (n : Nat), kernelOf s q = some k → k.retireAt = some n → n ≤ s.now → copiesLeft s q = false → answers (.kernelRetire q) s fun t => mapFind q t.sb = none ∧ sameMemory s t) ∧
    (∀ n key : Nat, mapFind q s.flights = some (.tag n key) → answers (.tagStateArrival q) s fun t => mapFind q t.flights = none ∧ ∀ j, j ≠ q → mapFind j t.flights = mapFind j s.flights) ∧
    (∀ w : W64, windowOpen s.sys = true → (s.die d).cp.running = false → answers (.streamStart d w) s fun t => (t.die d).cp.running = true ∧ (t.die d).cp.start = w &&& 0xFFFFFFFFFFFFFFF8 ∧ (t.die d).cp.off = 0) ∧
    (∀ x : Nat, windowOpen s.sys = true → answers (.cmdResume d x) s fun t => d ∉ (t.ctx x).paused ∧ ∀ j, j ≠ d → (j ∈ (t.ctx x).paused ↔ j ∈ (s.ctx x).paused)) ∧
    (∀ k : Nat, s.now % 64 = 0 → answers (.throttleWindow k) s fun t => t = s.setCluster k { s.cluster k with swallow := (s.cluster k).swallowNext }) ∧
    (let w := (s.core c).wd
     let n := if w.prog then 0 else if w.waiting then w.noprog else w.noprog + 1
     w.started = true → intervalOf s c ≤ w.pos →
      ((s.ctxOf c).limit = 0 ∨ n < (s.ctxOf c).limit → answers (.watchdogIntervalEnd c) s fun t => onlyCore c s t ∧ (t.core c).wd = { w with noprog := n, prog := false, waiting := true, pos := 0 }) ∧
      ((s.ctxOf c).limit ≠ 0 → (s.ctxOf c).limit ≤ n → w.noprog < n → answers (.watchdogIntervalEnd c) s fun t =>
        (t.ctx (s.core c).ctx).preempting = true ∧ ∃ r ∈ (t.die (dieOf c)).queue, r.cause = 0x50 ∧ r.core = c))

/-! ### Translation, faults, errors (R163, R171, R356 to R371) -/

namespace Sys2Proof.Claims

/-- The record of an acknowledgement no longer waits, and S and memory are as they were. -/
def acked (d q c : Nat) (s t : State) : Prop :=
  (∀ y ∈ (t.die d).waiting, y.seq ≠ q) ∧ sameMemory s t ∧ sameRegs (s.core c).su (t.core c).su ∧ (t.core c).su.pc = (s.core c).su.pc
/-- An engine of a core has let its entry go: nothing is under way and the head is n words further. -/
def retired (c e n : Nat) (s t : State) : Prop :=
  (t.core c).runOf e = none ∧ mapFind e (t.core c).prog = none ∧
    ((t.core c).engine e).ring.head = (((s.core c).engine e).ring.head + n) % (2 * ((s.core c).engine e).ring.size)

end Sys2Proof.Claims

/-- R163, R171, R357 to R364: a walk ends in a translation that its parties use, or in a suspension that is reported; a record is written at TAIL and waits; an acknowledgement retries, skips or kills:
S goes on at the instruction or behind it, an engine or a channel at its entry or behind it, with the entry's effects so far; one of no record sets BADACK; an invalidation empties the
tables; a word that is no instruction and an entry that is no command trap. That a table takes a translation as tlbAdd does is the model's choice (log entry 7), so is that the tables drop
the entries at the write of TR.INV (log entry 45), and so is the ADDR of a record for each party (log entry 28). -/
def Obligations.WalksAndRecords : Prop :=
  ∀ (s : State) (c d id q : Nat),
    (∀ (w : Walk) (x : Tlb) (l : List Nat) (va : Nat) (wr fe : Bool), s.walks.find? (fun w => w.id = id) = some w → walkOf s w.ctx w.va = .leaf x l → w.cluster < 160 →
      w.parties = [⟨(c, 0), va, wr, fe⟩] → (s.core c).su.wait = .walk →
      answers (.translationWalkDone id) s fun t => sameMemory s t ∧ (t.core c).su = { (s.core c).su with wait := .idle } ∧ (t.cluster w.cluster).tlb = tlbAdd 2048 x (s.cluster w.cluster).tlb ∧
        ∀ y ∈ t.walks, y.id ≠ id) ∧
    (∀ (w : Walk) (cause level : Nat) (l : List Nat) (va : Nat) (wr fe : Bool), s.walks.find? (fun w => w.id = id) = some w → walkOf s w.ctx w.va = .fail cause level l →
      w.parties = [⟨(c, 0), va, wr, fe⟩] → (s.core c).su.wait = .walk →
      answers (.translationWalkDone id) s fun t => sameMemory s t ∧ (t.core c).su.wait = .reporting ∧ (t.core c).su.pc = (s.core c).su.pc ∧ (t.core c).pr.bound = false ∧
        ∃ r : FRec, (t.die (dieOf c)).queue = (s.die (dieOf c)).queue ++ [r] ∧ r.cause = cause ∧ r.kind = 1 ∧ r.core = c ∧ r.addr = BitVec.ofNat 64 va) ∧
    (∀ (r : FRec) (l : List FRec),
      let x := s.die d
      let pa := x.fqBase.toNat / 4096 * 4096 + 32 * (x.tail % fqSize x)
      x.queue = r :: l → fqFull x = false → pa % 2 ^ 38 < 192 * 2 ^ 30 → answers (.faultRecordWrite d) s fun t =>
        sameMemoryBut pa 32 s t ∧ memNat t.mem pa 2 = r.core % 2 ^ 16 ∧ memNat t.mem (pa + 2) 1 = r.unit % 2 ^ 8 ∧ memNat t.mem (pa + 3) 1 = r.cause % 2 ^ 8 ∧ memNat t.mem (pa + 4) 2 = r.ctx % 2 ^ 16 ∧
          memNat t.mem (pa + 6) 1 = r.kind % 2 ^ 8 ∧ memNat t.mem (pa + 8) 8 = r.addr.toNat ∧ memNat t.mem (pa + 16) 8 = r.info.toNat ∧ memNat t.mem (pa + 24) 4 = x.seq % 2 ^ 32 ∧
            (t.die d).tail = (x.tail + 1) % (2 * fqSize x) ∧ (t.die d).seq = (x.seq + 1) % 2 ^ 32 ∧ (t.die d).queue = l ∧
              (r.kind < 2 → (t.die d).waiting = x.waiting ++ [{ r with seq := x.seq }]) ∧ (2 ≤ r.kind → (t.die d).waiting = x.waiting)) ∧
    (∀ r : FRec, windowOpen s.sys = true → (s.die d).waiting.find? (fun r => r.seq = q) = some r →
      (∀ e, 1 ≤ e → e ≤ 6 → r.agent = e → ((s.core r.owner).engine e).stop = .held r.seq →
        (answers (.fqAckRetry d q) s fun t => acked d q r.owner s t ∧ ((t.core r.owner).engine e).stop = .run ∧ ((t.core r.owner).engine e).ring = ((s.core r.owner).engine e).ring) ∧
        (r.after = true → answers (.fqAckSkip d q) s fun t => acked d q r.owner s t ∧ ((t.core r.owner).engine e).stop = .run ∧
          ((t.core r.owner).engine e).ring = ((s.core r.owner).engine e).ring) ∧
        (r.after = false → ∀ x : Run, (s.core r.owner).runOf e = some x → answers (.fqAckSkip d q) s fun t => acked d q r.owner s t ∧
          ((t.core r.owner).engine e).stop = .run ∧ retired r.owner e (runEntry x.ins).1 s t) ∧
        (r.after = false → e ≠ 4 → e ≠ 5 → (s.core r.owner).runOf e = none → answers (.fqAckSkip d q) s fun t => acked d q r.owner s t ∧
          ((t.core r.owner).engine e).stop = .run ∧ retired r.owner e (headEntry s r.owner e).1 s t)) ∧
      (∀ ch x l, ch < 16 → r.agent = 16 + ch → ((s.cluster r.owner).chan ch).queue = x :: l → x.port = false →
        (answers (.fqAckRetry d q) s fun t => (∀ y ∈ (t.die d).waiting, y.seq ≠ q) ∧ sameMemory s t ∧
          (t.cluster r.owner).chan ch = { (s.cluster r.owner).chan ch with stop := .run }) ∧
        (answers (.fqAckSkip d q) s fun t => (∀ y ∈ (t.die d).waiting, y.seq ≠ q) ∧ sameMemory s t ∧ ((t.cluster r.owner).chan ch).stop = .run ∧
          ((t.cluster r.owner).chan ch).queue.map (·.ins) = l.map (·.ins) ∧ ((t.cluster r.owner).chan ch).running = false ∧ ((t.cluster r.owner).chan ch).active = false)) ∧
      (r.agent = 0 → (s.core r.owner).su.wait = .held r.seq →
        (answers (.fqAckRetry d q) s fun t => (t.core r.owner).su.wait = .idle ∧ (t.core r.owner).su.pc = (s.core r.owner).su.pc ∧ sameMemory s t ∧ ∀ y ∈ (t.die d).waiting, y.seq ≠ q) ∧
        (answers (.fqAckSkip d q) s fun t => (t.core r.owner).su.wait = .idle ∧ (t.core r.owner).su.pc = (s.core r.owner).su.pc + 4 ∧ sameMemory s t ∧ ∀ y ∈ (t.die d).waiting, y.seq ≠ q)) ∧
      (d < 4 → answers (.fqAckKill d q) s fun t => (∀ y ∈ (t.die d).waiting, y.ctx ≠ r.ctx) ∧ ∀ e ∈ t.sb, entryCtx e.2 ≠ r.ctx)) ∧
    (windowOpen s.sys = true → (s.die d).waiting.find? (fun r => r.seq = q) = none → ∀ i ∈ [Instr.fqAckRetry d q, .fqAckSkip d q, .fqAckKill d q], answers i s fun t => t = s.setDie d { s.die d with badack := true }) ∧
    (∀ w : W64, windowOpen s.sys = true → (s.trBusy = none → answers (.trInv w) s fun t => sameMemory s t ∧ t.trBusy.isSome = true ∧ ∀ k, ∀ e ∈ (t.cluster k).tlb, invHits w e = false) ∧
      (s.trBusy.isSome = true → answers (.trInv w) s fun t => t = { s with trWait := s.trWait ++ [w] })) ∧
    (∀ n : Nat, s.trBusy = some n → n ≤ s.now → trReady s = true → s.trWait = [] → answers .trInvComplete s fun t => t = { s with trBusy := none }) ∧
    (∀ w : BitVec 32, (majorAssigned (fMajor w).toNat = false → answers (.scalarWordNotInstruction w) s (traps 0x01 0 s)) ∧
      (majorAssigned (fMajor w).toNat = true → decodeScalar w = none → answers (.scalarWordNotInstruction w) s (traps 0x02 0 s))) ∧
    (∀ w : W64, cWait w = 0xFF → answers (.engineWordNotCommand w) s fun t => sameMemory s t ∧ t.me.su = s.me.su ∧ (t.me.engine s.cur.2).stop = .reporting ∧
      ∃ r : FRec, (t.die (dieOf s.cur.1)).queue = (s.die (dieOf s.cur.1)).queue ++ [r] ∧ r.cause = 0x07 ∧ r.kind = 0 ∧ r.core = s.cur.1)

/-- R366 to R371: a corrected error freezes its domain for 40 pulses more; an uncorrectable one poisons its granule; lost state is reported, and a pool's entries go with it; a fatal error of an
unpartitioned package stops it, with its dump in die 0's memory and READY clear. That the lost pool without an owner is then as at reset, BOUND, LIMIT and CAP with it, is the model's
choice (log entry 22), and so are the numbers that stand for the kinds of error (log entry 47). -/
def Obligations.MemoryErrors : Prop :=
  ∀ (s : State) (n : Nat),
    (n < 160 → answers (.correctableError n) s fun t => t = s.setCluster n { s.cluster n with freeze := (s.cluster n).freeze + 40, corrected := (s.cluster n).corrected + 1 }) ∧
    ((s.cluster n).freeze = 1 → answers (.errorFreezeEnd n) s fun t => t = s.setCluster n { s.cluster n with freeze := 0 }) ∧
    answers (.uncorrectableError 0 n) s (fun t => isPoisoned t n = true ∧ sameMemory s t ∧ ∀ a, granuleOf a ≠ granuleOf n → isPoisoned t a = isPoisoned s a) ∧
    answers (.uncorrectableError 1 n) s (fun t => accBad t n = true ∧ t.acc = s.acc ∧ sameMemory s t) ∧
    answers (.uncorrectableError 2 n) s (fun t => isPoisoned t n = true ∧ sameMemory s t ∧ ∃ r ∈ (t.die (dieOfPa n % 4)).queue, r.cause = 0x53 ∧ r.kind = 2 ∧ r.addr = BitVec.ofNat 64 n) ∧
    answers (.uncorrectableError 3 n) s (fun t => mapFind (n % 2 ^ 40 / 64) (t.cluster (n / 2 ^ 40)).cache = none ∧ sameMemory s t) ∧
    ((s.core n).mir.st = .idle → answers (.stateLost 0 n) s fun t => ∃ r ∈ (t.die (dieOf n)).queue, r.cause = 0x55 ∧ r.kind = 2 ∧ r.core = n) ∧
    (∀ d, (s.pool n).owner = none → answers (.stateLost (1 + d) n) s fun t => t.pool n = Pool.reset ∧ ∃ r ∈ (t.die d).queue, r.cause = 0x57 ∧ r.kind = 2) ∧
    (∀ d, s.sys.part = 0 → answers (.fatalError d n) s fun t => t.sys.fatal = true ∧ t.sys.ready = false ∧ memNat t.mem 0x2F00000000 4 = 0x504D5544)

/-! ### Mirror (R324 to R334) -/

namespace Sys2Proof.Claims

/-- A byte of a core's image (R331): of the core's memory, or of its full-empty bits. -/
def imageByteIs (s : State) (c o : Nat) (b : Byte) : Prop :=
  if o < 524288 then b = memByte s.mem (coreBase c + o) else ∀ j, j < 8 → b.getLsbD j = fullAt s (coreBase c + 16 * (8 * (o - 524288) + j))

/-- The pieces of an image's place: they make up the image, lie in device memory and apart. -/
def wholeImage (l : List (Nat × Nat × Nat)) : Prop :=
  pieceEnd l = imageBytes ∧ (∀ p ∈ l, p.1 + p.2.2 ≤ 2 ^ 40) ∧ l.Pairwise fun p q => p.1 + p.2.2 ≤ q.1 ∨ q.1 + q.2.2 ≤ p.1

end Sys2Proof.Claims

/-- R324 to R333: a Mirror command that the table allows has its effect and leaves ERR 0; one while BUSY, or in a state that does not allow it, only sets ERR 1; IMGOUT writes every byte of the
core's image and IMGIN reads it back. Before stage 4 of the boot nothing answers (R383). The area's offsets 0x100, 0x200, 0x2A0 and 0x310 are the model's choice (log entry 11), and so are the
interval that LOAD keeps (log entry 30), CMD and CTX after a refused or a bare command (log entry 44), and the reserved command's writer (log entry 20). -/
def Obligations.MirrorCommands : Prop :=
  ∀ (s : State) (c x : Nat),
    (windowOpen s.sys = false → ∀ i ∈ [Instr.mirNone c, .freeze c, .save c, .imgout c, .imgin c x, .load c x, .resume c, .discard c], answers i s fun t => t = s) ∧
    (windowOpen s.sys = true →
    let m := (s.core c).mir
    let refused (i : Instr) : Prop := answers i s fun t => t = s.setCore c { s.core c with mir := { m with err := 1 } }
    (m.busy = true → ∀ i ∈ [Instr.mirNone c, .freeze c, .save c, .imgout c, .imgin c x, .load c x, .resume c, .discard c], refused i) ∧
    (m.busy = false → (m.st = .idle ∨ m.st = .saved → refused (.freeze c)) ∧ (m.st ≠ .frozen → refused (.save c) ∧ refused (.resume c)) ∧ (m.st ≠ .saved → refused (.imgout c)) ∧
      (m.st ≠ .idle → refused (.imgin c x)) ∧ (m.st = .running ∨ m.st = .frozen → refused (.load c x)) ∧ (m.st = .idle ∨ m.st = .running → refused (.discard c))) ∧
    (m.busy = false → answers (.mirNone c) s fun t => t = s.setCore c { s.core c with mir := { m with cmd := 0, err := 0 } }) ∧
    (m.busy = false → mirPerform s c 0 x = .next (s.setCore c { s.core c with mir := { m with cmd := 0, ctx := x, err := 0 } })) ∧
    (m.busy = false → m.st = .running → answers (.freeze c) s fun t => (t.core c).mir.st = .frozen ∧ (t.core c).mir.err = 0 ∧ (t.core c).pr.bound = false ∧ (t.core c).m.held = false ∧ sameMemory s t ∧
      (t.core c).mir.fcy = BitVec.ofNat 32 ((s.cluster (clusterOf c)).dcy + 1)) ∧
    (m.busy = false → m.st = .frozen → answers (.save c) s fun t => onlyCore c s t ∧ (t.core c).mir.busy = true ∧ (t.core c).mir.st = .frozen ∧ (t.core c).mir.err = 0 ∧ (t.core c).su = (s.core c).su) ∧
    (m.st = .frozen → m.saving.isSome = true → saveReady s c = true → answers (.saveWrite c) s fun t => (t.core c).mir.busy = false ∧
      ((writeArea s c).2 = true → (t.core c).mir.st = .saved ∧ (t.core c).mir.savedAt = some (m.area, (s.core c).ctx) ∧ (t.core c).pr.roster = false) ∧
      ((writeArea s c).2 = false → (t.core c).mir.st = .frozen ∧ (t.core c).mir.err = 3)) ∧
    (m.busy = false → m.st = .saved → answers (.imgout c) s fun t => (t.core c).mir.st = .saved ∧ (t.core c).su = (s.core c).su ∧
      let l := mappedPieces s (s.core c).ctx true (pagePieces m.img.toNat imageBytes)
      (l = [] → (t.core c).mir.err = 3 ∧ sameMemory s t) ∧
      (s.memOk → wholeImage l → (∀ p ∈ l, rangePoisoned s (coreBase c + p.2.1) (min p.2.2 (524288 - p.2.1)) = false) →
        (t.core c).mir.err = 0 ∧ ∀ p ∈ l, ∀ i, i < p.2.2 → imageByteIs s c (p.2.1 + i) (memByte t.mem (p.1 + i)))) ∧
    (m.busy = false → m.st = .idle → (s.core c).launched = false → answers (.imgin c x) s fun t => (t.core c).mir.st = .idle ∧ (t.core c).mir.ctx = x ∧
      let l := mappedPieces s x false (pagePieces m.img.toNat imageBytes)
      (l = [] → (t.core c).mir.err = 3 ∧ sameMemory s t) ∧
      (s.memOk → wholeImage l → (∀ p ∈ l, rangePoisoned s p.1 p.2.2 = false) →
        (t.core c).mir.err = 0 ∧ ∀ p ∈ l, ∀ i, i < p.2.2 → imageByteIs t c (p.2.1 + i) (memByte s.mem (p.1 + i)))) ∧
    (m.busy = false → m.st = .idle ∨ m.st = .saved → (s.core c).launched = false →
      let l := mappedPieces s x false (pagePieces m.area.toNat areaBytes)
      let rd := areaReader s l
      let err := loadError s c x l rd
      (err ≠ 0 → answers (.load c x) s fun t => onlyCore c s t ∧ (t.core c).mir.err = err ∧ (t.core c).mir.st = m.st ∧ (t.core c).su = (s.core c).su) ∧
      (err = 0 → answers (.load c x) s fun t => sameMemory s t ∧ (t.core c).mir.st = .frozen ∧ (t.core c).mir.err = 0 ∧ (t.core c).ctx = x ∧ (t.core c).su.pc = BitVec.ofNat 64 (rd 0x200 8) ∧
        (t.core c).su.epc = BitVec.ofNat 64 (rd 0x2A0 8) ∧ (t.core c).rint = keptInterval (savedHere s (rd 8 2) (pieceAddr l 0)) (s.core (rd 8 2)).rint (rd 0x310 4, rd 0x314 4) ∧ ∀ r, 0 < r → r < 32 → (t.core c).su.reg r = BitVec.ofNat 64 (rd (0x100 + 8 * r) 8))) ∧
    (m.busy = false → m.st = .frozen → answers (.resume c) s fun t => onlyCore c s t ∧ (t.core c).mir.st = .running ∧ (t.core c).mir.err = 0 ∧ (t.core c).su = { (s.core c).su with next := max (s.core c).su.next ((s.core c).cy + 1) }) ∧
    (m.busy = false → m.st = .frozen → answers (.discard c) s fun t => (t.core c).mir.st = .idle ∧ (t.core c).q = Queues.reset ∧ (t.core c).pr.bound = false ∧ (t.core c).pr.roster = false) ∧
    answers (.mirReserved c x) s (fun t => t = s))

/-! ### The package (R115, R373 to R390) -/

namespace Sys2Proof.Claims

/-- A delivery unit's table holds a translation of an address that lets it write there. -/
def dlvHolds (s : State) (d va pa : Nat) : Prop :=
  spaceOf va = some .device ∧ ∃ e, tlbFind (dlvCtx s d) va (unitTable s (160 + d)) = some e ∧ e.w = true ∧ pa = e.pa + (va - e.va)

/-- R377: the tokens of a slot, newest first and the newest of them at POS n, repeat with a period. -/
def periodic (h : List W32) (n reps l : Nat) : Prop :=
  1 ≤ l ∧ l ≤ 16 ∧ reps * l ≤ n + 1 ∧ reps * l ≤ h.length ∧ ∀ i, i < (reps - 1) * l → h[i]? = h[i + l]?

end Sys2Proof.Claims

/-- R115, R199, R349, R373 to R383: a delivery unit that is enabled moves the next token of the next slot in its round: the record, TAIL + 1, DELIVS + 1, and at a repetition the least period with STOP, and TRAPREQ
where TRAP asks for it; a repetition's trap reaches the owner's strand between two instructions, and TRAPREQ is cleared; the descriptor and the partition are set from stage 4 on; a Tsuiq port copies and leaves a
record; writes and reads of the host, through the translation of its function's BAR2, and writes of system writers reach their bytes and no others, but those of a disabled port; a done of system software counts
down and sets ERROR, the last one waiting for room in the continuation queue. The model's choices here: poison in the source ends a Tsuiq copy with STATUS 1 (log entry 25), an offset of 192 GiB or above is
written as though memory stood there (log entry 55), a system write of no bytes stands for the done (log entry 47), and the table of BAR2, with the row that sets a page of it (log entry 71). -/
def Obligations.DeliveryAndPorts : Prop :=
  ∀ (s : State) (d c p : Nat) (w : W64),
    (∀ (x : DlvDesc) (n r h e pr ph ps : Nat), dlvEnabled s d = true → (s.die d).dlvHeld = false → dlvWalk s d (pageVas ((s.die d).dlv.toNat / 16 * 16) 32) = none → dlvDesc s d = .inr x → nextSlot s d x = some n →
      dlvWalk s d (turnVas s d x n) = none → dlvRead s d x.ring 16 = .inr r → dlvRead s d (x.slots + 128 * n) 16 = .inr h → (r % 2 ^ 32 + 2 ^ 32 - r / 2 ^ 32 % 2 ^ 32) % 2 ^ 32 ≠ r / 2 ^ 64 % 2 ^ 32 →
      dlvRead s d (x.slots + 128 * n + 16 + 8 * (h / 2 ^ 32 % 2 ^ 32 % 8)) 8 = .inr e →
      let rec_ := x.ring + 16 + 16 * (r % 2 ^ 32 % (r / 2 ^ 64 % 2 ^ 32))
      let slot := x.slots + 128 * n
      let pos := h / 2 ^ 32 % 2 ^ 32
      let flags := h / 2 ^ 64 % 2 ^ 32
      let hist := (BitVec.ofNat 32 e :: mapGet [] n (s.die d).hist).take 128
      dlvHolds s d rec_ pr → dlvHolds s d (rec_ + 8) (pr + 8) → dlvHolds s d x.ring ph → dlvHolds s d slot ps → dlvHolds s d (slot + 4) (ps + 4) → dlvHolds s d (slot + 8) (ps + 8) →
      (pr + 16 ≤ ph ∨ ph + 4 ≤ pr) → (pr + 16 ≤ ps + 4 ∨ ps + 12 ≤ pr) → (ph + 4 ≤ ps + 4 ∨ ps + 12 ≤ ph) → answers (.deliveryTurn d) s fun t =>
        (t.die d).dlvPos = (n + 1) % x.nslot ∧ (t.die d).dlvHeld = false ∧ (x.reps ≠ 0 → mapGet [] n (t.die d).hist = hist) ∧
        memNat t.mem pr 8 = e % 2 ^ 64 ∧ memNat t.mem ph 4 = (r % 2 ^ 32 + 1) % 2 ^ 32 ∧ memNat t.mem (ps + 4) 4 = (pos + 1) % 2 ^ 32 ∧
        (∀ a, (a < pr ∨ pr + 16 ≤ a) → (a < ph ∨ ph + 4 ≤ a) → (a < ps + 4 ∨ ps + 12 ≤ a) → memByte t.mem a = memByte s.mem a) ∧
        ∃ l, ((l = 0 ∧ (x.reps = 0 ∨ flags.testBit 1 = true ∨ ∀ k, ¬ periodic hist pos x.reps k)) ∨
            (x.reps ≠ 0 ∧ flags.testBit 1 = false ∧ periodic hist pos x.reps l ∧ ∀ k, k < l → ¬ periodic hist pos x.reps k)) ∧
          memNat t.mem (pr + 8) 8 = pos + n % 65536 * 2 ^ 32 + l * 2 ^ 48 + (if l = 0 then 0 else 2 ^ 56) ∧
          memNat t.mem (ps + 8) 4 = if l = 0 then memNat s.mem (ps + 8) 4 else flags ||| 2 ||| if x.trap then 4 else 0) ∧
    (∀ (n ps : Nat) (x : DlvDesc), repRequest s c = some (d, n, x) → (s.core c).mir.st = .running → betweenInstrs (s.core c).su = true → dlvHolds s d (x.slots + 128 * n + 8) ps → answers (.repetitionTrap c) s fun t =>
      (memNat t.mem ps 4).testBit 2 = false ∧ sameMemoryBut ps 4 s t ∧
      ((s.ctxOf c).tven = true → (s.core c).su.inh = false → (t.core c).su.pc = (s.ctxOf c).tvec ∧ (t.core c).su.epc = (s.core c).su.pc ∧ (t.core c).su.cause = BitVec.ofNat 64 (x.code * 2 ^ 32 + 0x0C)) ∧
      ((s.ctxOf c).tven = false ∨ (s.core c).su.inh = true → (t.core c).su.wait = .reporting)) ∧
    (windowOpen s.sys = true → answers (.dlvDescWrite d w) s fun t => (t.die d).dlv = w &&& 0x000FFFFFFFFFFFF1 ∧ (t.die d).dlvPos = 0 ∧ ∀ j, j ≠ d → t.die j = s.die j) ∧
    (windowOpen s.sys = true → (∀ x ∈ s.ctxs, x.2.live = false) → (w.toNat % 4 ≠ 3 → answers (.sysPartWrite w) s fun t => t = { s with sys := { s.sys with part := w.toNat % 4 } }) ∧
      (w.toNat % 4 = 3 → answers (.sysPartWrite w) s fun t => t = s)) ∧
    (windowOpen s.sys = true → (∃ x ∈ s.ctxs, x.2.live = true) → answers (.sysPartWrite w) s fun t => t = s) ∧
    (windowOpen s.sys = false → ∀ i ∈ [Instr.dlvDescWrite d w, .sysPartWrite w], answers i s fun t => t = s) ∧
    (∀ a b n g : Nat, mapFind p s.ports = none → p < 24 → p ∉ s.sys.portsOff → a + n ≤ 2 ^ 40 → partOf s (a / 2 ^ 38 % 4) = partOf s (p / 6) → partOf s ((a + n - 1) / 2 ^ 38 % 4) = partOf s (p / 6) →
      answers (.tsuiqCopy p a b n g) s fun t => ∃ x : PortCopy, mapFind p t.ports = some x ∧ x.src = a ∧ x.dst = b ∧ x.len = n ∧ x.tag = g ∧ s.now < x.due) ∧
    (∀ x : PortCopy, mapFind p s.ports = some x → x.due ≤ s.now → answers (.tsuiqCopyComplete p) s fun t => mapFind p t.ports = none ∧ sameMemory s t ∧
      if Config.remoteRefuses x.dst then t.remote = s.remote ∧ mapGet [] p t.sent = (2, 0, x.tag) :: mapGet [] p s.sent
      else memBytes (mapGet [] p t.remote) x.dst (cleanBytes s x.src x.len) = memBytes s.mem x.src (cleanBytes s x.src x.len) ∧
        mapGet [] p t.sent = (if cleanBytes s x.src x.len = x.len then 0 else 1, cleanBytes s x.src x.len % 2 ^ 32, x.tag) :: mapGet [] p s.sent ∧ (s.poison = [] → cleanBytes s x.src x.len = x.len)) ∧
    (∀ x : PortCopy, mapFind p s.ports = some x → answers (.tsuiqLinkLost p) s fun t => mapFind p t.ports = none ∧ sameMemory s t ∧
      ∃ n, n ≤ x.len ∧ memBytes (mapGet [] p t.remote) x.dst n = memBytes s.mem x.src n ∧ mapGet [] p t.sent = (1, n % 2 ^ 32, x.tag) :: mapGet [] p s.sent) ∧
    (∀ (fn off n : Nat) (v : BitVec 4096), off < 2 ^ 36 →
      (functions s ≤ fn → answers (.pcieBar2Write (fn * 2 ^ 36 + off) n v) s fun t => t = s) ∧
      (fn < functions s → answers (.pcieBar2Write (fn * 2 ^ 36 + off) 0 v) s fun t => t = { s with bar2 := mapSet (fn * 2 ^ 20 + off / 65536) (v.toNat % 2 ^ 24) s.bar2 }) ∧
      (∀ q, fn < functions s → 0 < n → n ≤ 512 → off % 65536 + n ≤ 65536 → mapFind (fn * 2 ^ 20 + off / 65536) s.bar2 = some q → q < 2 ^ 24 →
        let pa := q * 65536 + off % 65536
        partOf s (pa / 2 ^ 38) = fn → answers (.pcieBar2Write (fn * 2 ^ 36 + off) n v) s fun t => sameMemoryBut pa n s t ∧ memNat t.mem pa n = v.toNat % 256 ^ n)) ∧
    (∀ fn off n q : Nat, off < 2 ^ 36 → off % 65536 + n ≤ 65536 → mapFind (fn * 2 ^ 20 + off / 65536) s.bar2 = some q → q < 2 ^ 24 → partOf s ((q * 65536 + off % 65536) / 2 ^ 38) = fn →
      (∀ i, i < n → isPoisoned s (q * 65536 + off % 65536 + i) = false) → bar2Read s fn off n = some (memBytes s.mem (q * 65536 + off % 65536) n)) ∧
    (∀ (u a n : Nat) (v : BitVec 512), (∃ j ∈ s.sys.portsOff, portOf u = some j) → answers (.systemWriterWrite u a n v) s fun t => t = s) ∧
    (∀ (u a n : Nat) (v : BitVec 512), (∀ j ∈ s.sys.portsOff, portOf u ≠ some j) → 0 < n → n ≤ 64 → answers (.systemWriterWrite u a n v) s fun t =>
      sameMemoryBut (a % 2 ^ 40) n s t ∧ memNat t.mem (a % 2 ^ 40) n = v.toNat % 256 ^ n) ∧
    (∀ (u a : Nat) (v : BitVec 512), (∀ j ∈ s.sys.portsOff, portOf u ≠ some j) → (1 < memNat s.mem a 4 → answers (.systemWriterWrite u a 0 v) s fun t => sameMemoryBut a 5 s t ∧ memNat t.mem a 4 = memNat s.mem a 4 - 1 ∧
        memNat t.mem (a + 4) 1 = memNat s.mem (a + 4) 1 ||| 1) ∧
      (memNat s.mem a 4 = 1 → 16 ≤ (s.cluster ((a - 2 ^ 40) / 2 ^ 23)).task.conts.length → answers (.systemWriterWrite u a 0 v) s fun t => t = { s with dones := s.dones ++ [(u, a)] }))

namespace Sys2Proof.Claims

/-- An image that a slot accepts (R384): magic, a version not below MINVER, a length in its bounds, a public key whose digest is the fuses' value, a good signature over its header, key and payload. -/
def goodImage (y : Sys) (x : Slot) : Prop :=
  let len := x.head.toNat / 2 ^ 64 % 2 ^ 32
  x.head.toNat % 2 ^ 32 = 0x47524942 ∧ y.minver ≤ x.head.toNat / 2 ^ 32 % 2 ^ 32 ∧ len ≤ 2 ^ 28 ∧ x.head.toNat / 2 ^ 96 = 0 ∧
    shake256 (natBytes x.pk.toNat 64) 32 = natBytes y.pkh.toNat 32 ∧
    slhVerifies (natBytes x.pk.toNat 64) (natBytes x.head.toNat 16 ++ natBytes x.pk.toNat 64 ++ natBytes x.body len) (natBytes (x.body / 256 ^ len) 29792) = true

/-- The event of a domain's corrected errors of the last second (R366, R388). -/
def correctedEvent (s : State) (e : Nat × Cluster) : Nat × Nat × Nat := ((s.now - s.sys.powerAt) / Config.pulsesPerSecond, 3, e.1 + 65536 * e.2.corrected)

end Sys2Proof.Claims

/-- R383 to R390: power-good begins stage 1; a stage that is done leads to the next, or to STAGE 7, or, in the trial boot of an update, to a boot of the other slot; a stage that overruns its limit
fails; READY is set in stage 4, which raises MINVER in a trial; an update fills the slot that was not booted, and erases it where the image is not good; a sensor's sample is kept; corrected errors are
logged once a second and counted afresh. The model's choices here: power-down keeps device memory (log entry 34), core and cluster memory then read 0 (log entry 1); the calibrations end as free values say (log
entry 26); no update has a slot to go to before one is booted, and the header's bytes 12 to 15 and the bound of LENGTH are checked like the rest (log entry 14); a reversion shows stage 1 and no stage 7 (log
entry 33); the data of a corrected-error record are the domain and its count (log entry 36); a reading comes in the pulse before its millisecond (log entry 49). -/
def Obligations.BootAndManagement : Prop :=
  ∀ (s : State),
    let y := s.sys
    let fails (i : Instr) (reason : Nat) : Prop :=
      (y.trying = false → answers i s fun t => t.sys.stage = 7 ∧ t.sys.reason = reason) ∧
      (y.trying = true → answers i s fun t => t.sys.stage = 1 ∧ t.sys.slot = 1 - y.slot ∧ t.sys.reverted = true ∧ t.sys.trying = false ∧ t.sys.minver = y.minver)
    (y.power = false → answers .powerGood s fun t => t.sys.power = true ∧ t.sys.stage = 1 ∧ sameMemory s t) ∧
    (y.stage = 1 → match bootSlot y with
      | some slot => (slot = 0 ∨ slot = 1 ∨ slot = y.slot) ∧ goodImage y (slotOf y slot) ∧ answers .bootStageDone s fun t => t.sys.stage = 2 ∧ t.sys.slot = slot ∧
          t.sys.version = BitVec.ofNat 32 (slotOf y slot).version ∧ (t.sys.trying = true ↔ y.trial = some slot ∧ y.reverted = false)
      | none => fails .bootStageDone 1) ∧
    (y.stage = 2 → if Config.calibrates (s.now * 2) then answers .bootStageDone s fun t => t.sys.stage = 3 ∧ (t.sys.dump = true ↔ memNat s.mem 0x2F00000000 4 = 0x504D5544) ∧
        ∀ a, a < 2 ^ 40 → memByte t.mem a = 0 ∨ (t.sys.dump = true ∧ 0x2F00000000 ≤ a ∧ a < 0x3000000000 ∧ memByte t.mem a = memByte s.mem a)
      else fails .bootStageDone 2) ∧
    (y.stage = 3 → if Config.calibrates (s.now * 2 + 1) then answers .bootStageDone s fun t => t.sys.stage = 4 else fails .bootStageDone 3) ∧
    (1 ≤ y.stage → y.stage ≤ 4 → y.began + stagePulses y.stage < s.now → fails .bootStageTimeout y.stage) ∧
    (∀ w : W64, (y.stage = 4 → w.getLsbD 0 = true → answers (.sysReadyWrite w) s fun t => t.sys.ready = true ∧ t.sys.stage = 5 ∧ t.sys.trying = false ∧
        t.sys.minver = if y.trying then max y.minver (slotOf y y.slot).version else y.minver) ∧
      (y.stage ≠ 4 ∨ w.getLsbD 0 = false → answers (.sysReadyWrite w) s fun t => t = s)) ∧
    (∀ h k n : Nat, y.slot ≤ 1 → let x : Slot := ⟨BitVec.ofNat 128 h, BitVec.ofNat 512 k, n⟩
      (y.stage < 2 ∨ (y.stage = 7 ∧ y.reason = 1) → answers (.updateWrite h k n) s fun t => t = s) ∧
      (2 ≤ y.stage → (y.stage = 7 → y.reason ≠ 1) → answers (.updateWrite h k n) s fun t => slotOf t.sys y.slot = slotOf y y.slot ∧ t.sys.slot = y.slot ∧ t.sys.stage = y.stage ∧ t.sys.minver = y.minver ∧
        ((goodImage y x ∧ slotOf t.sys (1 - y.slot) = x ∧ t.sys.trial = some (1 - y.slot)) ∨ (¬ goodImage y x ∧ slotOf t.sys (1 - y.slot) = Slot.erased ∧ t.sys.trial ≠ some (1 - y.slot))))) ∧
    (∀ (d n : Nat) (w : BitVec 32), sampleDue s = true → sampled s d n = false → n ∈ sensorsOf d → mapGet 0 n (s.die d).hot < 9 → answers (.sensorSample d n w) s fun t => (mapGet 0#64 n (t.die d).sensors).toNat % 2 ^ 32 = w.toNat ∧
      (mapGet 0#64 n (t.die d).sensors).toNat / 2 ^ 32 = ((mapGet 0#64 n (s.die d).sensors).toNat / 2 ^ 32 + 1) % 2 ^ 32 ∧ sameMemory s t ∧
      mapGet 0 n (t.die d).hot = if isHot d n w then mapGet 0 n (s.die d).hot + 1 else 0) ∧
    (answers .eventLogTick s fun t => (∀ k, (t.cluster k).corrected = 0) ∧ sameMemory s t ∧
      let l := (s.clusters.filter fun e => e.2.corrected ≠ 0).map (correctedEvent s)
      t.sys.log = if l = [] then y.log else (l.reverse ++ y.log).take 65536) ∧
    (answers .powerDown s fun t => t.cores = [] ∧ t.pools = [] ∧ t.sb = [] ∧ t.sys.power = false ∧ t.sys.stage = 0 ∧ t.sys.minver = y.minver ∧ t.sys.slotA = y.slotA ∧ t.sys.slotB = y.slotB ∧
      t.sys.pkh = y.pkh ∧ (∀ a, 2 ^ 40 ≤ a → memByte t.mem a = 0) ∧ ∀ a, a < 2 ^ 40 → memByte t.mem a = memByte s.mem a)

/-- R63, R82, R321, R383, R386: a context begins with LIMIT 16, INTERVAL 64 and every other register zero, with rounding modes, coder lanes, q registers and CDF slots of its own at their reset values and
tiles of +0; a write through the window has its effect from stage 4 on and none before; a misaligned one, or one of another size, is only logged, and a read changes nothing; swallow counts are
management's to write. The model's choices here: what a core holds belongs to the context at hand, and every element of every tile is zeroed (log entry 27), descriptor slots begin empty (log entry 2), and an access's offset,
size and writer are numbered as log entry 35 says. -/
def Obligations.ContextsAndWindow : Prop :=
  ∀ (s : State) (x : Nat) (w : W64),
    (s.sys.ready = true → (s.ctx x).live = false → x < 4096 → answers (.contextCreate x) s fun t => (t.ctx x).live = true ∧ (t.ctx x).limit = 16 ∧ (t.ctx x).interval = 64 ∧ (t.ctx x).tven = false ∧ (t.ctx x).rtrap = false ∧ (t.ctx x).priv = false ∧
      (t.ctx x).rctrap = 0 ∧ (t.ctx x).racelog = 0 ∧ (t.ctx x).tvec = 0 ∧ (t.ctx x).floor = 0 ∧ (t.ctx x).wake = 0 ∧ (t.ctx x).ptroot = 0 ∧
      (t.ctx x).slots = [] ∧ (t.ctx x).cores = [] ∧ sameMemory s t ∧ (∀ key, accAt t key = 0) ∧
      ∀ c, (t.core c).su = (s.core c).su ∧ ((s.core c).ctx = x → (s.core c).mir.st = .idle → (t.core c).rm = [] ∧ (t.core c).v.coder = [] ∧ (t.core c).v.q = [] ∧ (t.core c).v.cdf = [])) ∧
    (s.sys.stage < 4 → answers (.windowRegisterWrite x w) s fun t => t = s) ∧
    (s.sys.stage = 4 ∨ s.sys.stage = 5 →
      (x % 8 ≠ 0 ∨ 2 ^ 30 ≤ x → answers (.windowRegisterWrite x w) s fun t => t = { s with sys := { s.sys with log := t.sys.log } } ∧ ∃ e, t.sys.log = (e :: s.sys.log).take 65536) ∧
      (2 ^ 29 ≤ x → x < 2 ^ 30 → x % 8 = 0 → accAssigned s (accView x) (accOffset x) = true → answers (.windowRegisterWrite x w) s fun t => t = s) ∧
      (∀ d, d < 4 → x = 0x2000000 + 2 ^ 20 * d + 0x058 → answers (.windowRegisterWrite x w) s fun t => (t.die d).cp.ctx = w.toNat % 65536 ∧ sameMemory s t) ∧
      (∀ d k, d < 4 → k < 40 → w.toNat % 64 ≤ 48 →
        (x = 5 * 2 ^ 26 + 0x2000000 + 2 ^ 20 * d + 0x100 + 8 * k → answers (.windowRegisterWrite x w) s fun t =>
          (t.cluster (d * 40 + k)).swallowNext = w.toNat % 64 ∧ (t.cluster (d * 40 + k)).swallow = (s.cluster (d * 40 + k)).swallow) ∧
        (x = 0x2000000 + 2 ^ 20 * d + 0x100 + 8 * k → answers (.windowRegisterWrite x w) s fun t => t = s)) ∧
      (∀ k, k < 4096 → x = 0x1000000 + 4096 * k + 8 * 0x100 → answers (.windowRegisterWrite x w) s fun t => (t.ctx k).ptroot = w &&& 0x000000FFFFFF0000))

/-! ### The whole machine (R6, R156 to R171, R208, R379, R383) -/

/-- R163, R166, R171, R208, R378: a step whose turn is S's runs the instruction that the fetched word decodes to (the oldest in a bound core's buffer, or the one at the pc in a detached core's line) in
the same state, S noting the word; a word that decodes to nothing is run as such; the trap of a repetition comes before the next instruction. A step whose turn is an engine's runs the command that
the words at its head decode to. The turns themselves, one after the other from the agenda, a unit's step that the state does not have being passed over, and the next pulse or input when no turn
is left, are the model's choice (log entries 3 and 37). -/
def Obligations.StepRunsDecoded : Prop :=
  ∀ (s : State) (c : Nat) (r : List Turn),
    let k := s.core c
    let u : State := { s with agenda := r }
    let fetched (w : BitVec 32) : Prop := (k.pr.bound = true ∧ ∃ e l, k.pr.ibuf = e :: l ∧ e.fault = 0 ∧ e.word = w) ∨
      (k.pr.bound = false ∧ k.pr.failed = 0 ∧ ∃ l : PLine, (k.pr.pbuf.find? fun l => l.line = k.su.pc.toNat / 64) = some l ∧ l.words.getD (k.su.pc.toNat / 4 % 16) 0 = w)
    let sees (w : BitVec 32) (t : State) : Prop := t.cur = (c, 0) ∧ onlyS c { u with cur := (c, 0) } t ∧ t.me.su = { k.su with word := w } ∧ t.me.pr = k.pr
    (s.agenda = .unit c 0 :: r → scalarTries s.now k = true → (repRequest u c).isSome = true → betweenInstrs k.su = true → step s = exec (.repetitionTrap c) u) ∧
    (∀ w : BitVec 32, s.agenda = .unit c 0 :: r → scalarTries s.now k = true → (repRequest u c = none ∨ betweenInstrs k.su = false) → fetched w →
      (∀ i, decodeScalar w = some i → decodeFails s c w = true ∨ usesReady s.now k w = true → ∃ t, sees w t ∧ step s = exec i t) ∧
      (decodeScalar w = none → ∃ t, sees w t ∧ step s = exec (.scalarWordNotInstruction w) t)) ∧
    (∀ (e : Nat) (i : Instr), 1 ≤ e → e ≤ 6 → s.agenda = .unit c e :: r → engineTries k e = true →
      let h := headSkip k e
      let w := ringWord s c e h
      wordsAt s c e h 1 = true → wordsAt s c e h (entryNeeds e w) = true → ringStall s c e h (entryNeeds e w) = none → entryCause s c e w = none →
      decodeEntry (engineMap e) w ((List.range (wordExts e w)).map fun j => ringWord s c e (h + j + 1)) = some i →
      ∃ t, step s = exec i t ∧ t = { u with cur := (c, e) }.setCore c (k.modEng e fun g => { g with word := w })) ∧
    (∀ i, s.agenda = .event i :: r → (∀ t, exec i u = .next t → step s = .next t) ∧ (exec i u = .refused .notEnabled → step s = .next u)) ∧
    (s.agenda = [] → (∀ t, tick s = some t → step s = .next t) ∧ (tick s = none → step s = .fault .stopped))

/-- R156 to R171: the words that the manual writes out for its examples decode to the instructions it gives them for. -/
def Obligations.DecodeWords : Prop :=
  decodeScalar 0x6F485204 = some (.ldN32W 3 4 5 2 4) ∧ decodeScalar 0x16830006 = some (.fence 0 3 0x0006) ∧ decodeScalar 0x190832A1 = some (.pputTry 0 4 3 5 2) ∧
  decodeScalar 0x08C00000 = some (.detach 0) ∧ decodeScalar 0x08C14040 = some (.join 0 2 64) ∧ decodeScalar 0x19430000 = some (.eret 0) ∧
  decodeScalar 0x19CA6051 = some (.setcr 0 5 6 0x051) ∧
  decodeEntry .v 0x0208330606003400 [] = some (.vfmaF32 ⟨2, 8, 3, 1, 64, 3, 2, 0, 0, 0⟩) ∧
  decodeEntry .v 0x0000741458B84000 [] = some (.vtopk ⟨0, 0, 10, 22, 23, 4, 0, 0, 0, 0⟩) ∧
  decodeEntry .v 0x0000830984000200 [] = some (.rcdec ⟨0, 0, 4, 97, 0, 0, 1, 0, 0, 0⟩) ∧
  decodeEntry .v 0x0000020100000000 [] = some (.vEnop ⟨0, 0, 0, 64, 0, 0, 0, 0, 0, 0⟩) ∧
  decodeEntry .l 0x0010102080000000 [0xFF0FFFFFFFF82000, 0xFF0000000000C03F, 0xFF00000000000080] =
    some (.lstrm ⟨0, 0x10, 0x8200000, 0, 0, 0⟩ 0x0FFFFFFFF82000 0xC03F 0x80) ∧
  decodeEntry .m 0x0000100000000000 [] = some (.mlease ⟨0, 0, 0, 0, 0, 0⟩) ∧
  decodeEntry .m 0x0000122080000000 [0xFF00001000020000] = some (.mmul ⟨0, 0, 0x8200000, 0, 0, 0⟩ 0x00001000020000) ∧
  decodeEntry .m 0x0001141000000000 [0xFF00003000000000, 0xFF0FFFFFFFF80400] = some (.mdrain ⟨0, 1, 0x4000000, 0, 0, 0⟩ 0x00003000000000 0x0FFFFFFFF80400) ∧
  decodeScalar 0 = none ∧ decodeEntry .v 0 [] = none ∧ decodeEntry .v 0xFFFFFFFFFFFFFFFF [] = none

/-- R156 to R170: decoding the words of a well-formed instruction gives it back, with every operand at every value its encoding admits; the constructors that stand for no fetched word (packets, whose words are operands, and the steps of units and of the machine, which no program holds) are the only ones shut out. -/
def Obligations.EncodeDecodeRoundTrip : Prop :=
  ∀ i : Instr, i.wf = true → encode i = .noWord ∨ decodeEncoded (encode i) = some i

/-- Log entry 1: memory keeps its canonical form, so that equal memories are equal data, whatever a step does: an instruction of any unit, a trap, a copy, a Mirror command, a dump, a boot stage. The form is the
model's; the manual gives the memories that it holds (R73, R389). -/
def Obligations.MemoryStaysCanonical : Prop := ∀ s t : State, s.memOk → step s = .next t → t.memOk

/-- R141, R172, R321, R379, R383: at power-up no core runs a strand and none is bound, no context is live, no pool has an owner and each holds its bound of 64 and its limit of 4096, the scoreboard and
every queue of records is empty, s0 reads zero and p0 true, SYS.PART, SYS.BOOT and SYS.READY read zero, and memory lists nothing, which is its canonical form (what it then reads is the model's choice, log entry 1). -/
def Obligations.ResetValues : Prop :=
  let s := State.reset
  s.memOk ∧ s.mem = [] ∧ s.sb = [] ∧ (∀ c, (s.core c).mir.st = .idle ∧ (s.core c).pr.bound = false ∧ (s.core c).pr.roster = false ∧ (s.core c).su.reg 0 = 0 ∧ (s.core c).su.pred 0 = true) ∧
    (∀ x, (s.ctx x).live = false) ∧ (∀ p, (s.pool p).owner = none ∧ (s.pool p).bound = 64 ∧ (s.pool p).starve = 4096 ∧ (s.pool p).cap = 0) ∧
    (∀ d, (s.die d).queue = [] ∧ (s.die d).waiting = [] ∧ (s.die d).cp.running = false ∧ (s.die d).dlv = 0 ∧ (s.die d).fqBase = 0) ∧
    s.sys.part = 0 ∧ s.sys.stage = 0 ∧ bootWord s.sys = 0 ∧ s.sys.ready = false ∧ s.sys.power = false ∧ Sys2Proof.core.reset = s

end
end

