-- ==== Sys2Proof/Laws/Encoding.lean ====
section
/-! SUPPORT. Fields of the words that the encoder builds: a slice that lies inside one field of a format is a slice of that field. -/
namespace Sys2Proof.Laws

theorem slice_low {m n : Nat} (x : BitVec m) (y : BitVec n) (o l : Nat) (h : o + l ≤ n) : (x ++ y).extractLsb' o l = y.extractLsb' o l := by
  ext i hi; simp only [BitVec.getElem_extractLsb', BitVec.getLsbD_append]; rw [if_pos (by omega)]
theorem slice_high {m n : Nat} (x : BitVec m) (y : BitVec n) (o l : Nat) (h : n ≤ o) : (x ++ y).extractLsb' o l = x.extractLsb' (o - n) l := by
  ext i hi; simp only [BitVec.getElem_extractLsb', BitVec.getLsbD_append]; rw [if_neg (by omega)]; congr 1; omega
theorem slice_all {n : Nat} (x : BitVec n) : x.extractLsb' 0 n = x := by
  ext i hi; simp
theorem slice_slice {n : Nat} (x : BitVec n) (o l p k : Nat) (h : p + k ≤ l) : (x.extractLsb' o l).extractLsb' p k = x.extractLsb' (o + p) k := by
  ext i hi; simp only [BitVec.getElem_extractLsb', BitVec.getLsbD_extractLsb']; rw [decide_eq_true (by omega)]; simp [Nat.add_assoc]

/-- A predicate number in a register field. -/
theorem pred_top (p : BitVec 3) : (predField p).extractLsb' 3 2 = 0#2 := by
  unfold predField; rw [slice_high _ _ _ _ (by omega)]; rfl
theorem pred_low (p : BitVec 3) : (predField p).extractLsb' 0 3 = p := by
  unfold predField; rw [slice_low _ _ _ _ (by omega), slice_all]

/-! ### rrWord -/

theorem rr_f (g : BitVec 3) (m : BitVec 7) (d : BitVec 5) (a : BitVec 5) (b : BitVec 5) (f : BitVec 7) (o l : Nat) (k : o + l ≤ 7) : (rrWord g m d a b f).extractLsb' o l = (f).extractLsb' (o) l := by
  ext i hi; simp only [rrWord, BitVec.getElem_extractLsb', BitVec.getLsbD_append]
  repeat (first | rw [if_pos (by omega)] | rw [if_neg (by omega)])

theorem rr_b (g : BitVec 3) (m : BitVec 7) (d : BitVec 5) (a : BitVec 5) (b : BitVec 5) (f : BitVec 7) (o l : Nat) (h : 7 ≤ o) (k : o + l ≤ 12) : (rrWord g m d a b f).extractLsb' o l = (b).extractLsb' (o - 7) l := by
  ext i hi; simp only [rrWord, BitVec.getElem_extractLsb', BitVec.getLsbD_append]
  repeat (first | rw [if_pos (by omega)] | rw [if_neg (by omega)])
  congr 1; omega

theorem rr_a (g : BitVec 3) (m : BitVec 7) (d : BitVec 5) (a : BitVec 5) (b : BitVec 5) (f : BitVec 7) (o l : Nat) (h : 12 ≤ o) (k : o + l ≤ 17) : (rrWord g m d a b f).extractLsb' o l = (a).extractLsb' (o - 12) l := by
  ext i hi; simp only [rrWord, BitVec.getElem_extractLsb', BitVec.getLsbD_append]
  repeat (first | rw [if_pos (by omega)] | rw [if_neg (by omega)])
  congr 1; omega

theorem rr_d (g : BitVec 3) (m : BitVec 7) (d : BitVec 5) (a : BitVec 5) (b : BitVec 5) (f : BitVec 7) (o l : Nat) (h : 17 ≤ o) (k : o + l ≤ 22) : (rrWord g m d a b f).extractLsb' o l = (d).extractLsb' (o - 17) l := by
  ext i hi; simp only [rrWord, BitVec.getElem_extractLsb', BitVec.getLsbD_append]
  repeat (first | rw [if_pos (by omega)] | rw [if_neg (by omega)])
  congr 1; omega

theorem rr_m (g : BitVec 3) (m : BitVec 7) (d : BitVec 5) (a : BitVec 5) (b : BitVec 5) (f : BitVec 7) (o l : Nat) (h : 22 ≤ o) (k : o + l ≤ 29) : (rrWord g m d a b f).extractLsb' o l = (m).extractLsb' (o - 22) l := by
  ext i hi; simp only [rrWord, BitVec.getElem_extractLsb', BitVec.getLsbD_append]
  repeat (first | rw [if_pos (by omega)] | rw [if_neg (by omega)])
  congr 1; omega

theorem rr_g (g : BitVec 3) (m : BitVec 7) (d : BitVec 5) (a : BitVec 5) (b : BitVec 5) (f : BitVec 7) (o l : Nat) (h : 29 ≤ o) (k : o + l ≤ 32) : (rrWord g m d a b f).extractLsb' o l = (g).extractLsb' (o - 29) l := by
  ext i hi; simp only [rrWord, BitVec.getElem_extractLsb', BitVec.getLsbD_append]
  repeat (first | rw [if_pos (by omega)] | rw [if_neg (by omega)])
  congr 1; omega

/-! ### riWord -/

theorem ri_i (g : BitVec 3) (m : BitVec 7) (d : BitVec 5) (a : BitVec 5) (i : BitVec 12) (o l : Nat) (k : o + l ≤ 12) : (riWord g m d a i).extractLsb' o l = (i).extractLsb' (o) l := by
  ext i hi; simp only [riWord, BitVec.getElem_extractLsb', BitVec.getLsbD_append]
  repeat (first | rw [if_pos (by omega)] | rw [if_neg (by omega)])

theorem ri_a (g : BitVec 3) (m : BitVec 7) (d : BitVec 5) (a : BitVec 5) (i : BitVec 12) (o l : Nat) (h : 12 ≤ o) (k : o + l ≤ 17) : (riWord g m d a i).extractLsb' o l = (a).extractLsb' (o - 12) l := by
  ext i hi; simp only [riWord, BitVec.getElem_extractLsb', BitVec.getLsbD_append]
  repeat (first | rw [if_pos (by omega)] | rw [if_neg (by omega)])
  congr 1; omega

theorem ri_d (g : BitVec 3) (m : BitVec 7) (d : BitVec 5) (a : BitVec 5) (i : BitVec 12) (o l : Nat) (h : 17 ≤ o) (k : o + l ≤ 22) : (riWord g m d a i).extractLsb' o l = (d).extractLsb' (o - 17) l := by
  ext i hi; simp only [riWord, BitVec.getElem_extractLsb', BitVec.getLsbD_append]
  repeat (first | rw [if_pos (by omega)] | rw [if_neg (by omega)])
  congr 1; omega

theorem ri_m (g : BitVec 3) (m : BitVec 7) (d : BitVec 5) (a : BitVec 5) (i : BitVec 12) (o l : Nat) (h : 22 ≤ o) (k : o + l ≤ 29) : (riWord g m d a i).extractLsb' o l = (m).extractLsb' (o - 22) l := by
  ext i hi; simp only [riWord, BitVec.getElem_extractLsb', BitVec.getLsbD_append]
  repeat (first | rw [if_pos (by omega)] | rw [if_neg (by omega)])
  congr 1; omega

theorem ri_g (g : BitVec 3) (m : BitVec 7) (d : BitVec 5) (a : BitVec 5) (i : BitVec 12) (o l : Nat) (h : 29 ≤ o) (k : o + l ≤ 32) : (riWord g m d a i).extractLsb' o l = (g).extractLsb' (o - 29) l := by
  ext i hi; simp only [riWord, BitVec.getElem_extractLsb', BitVec.getLsbD_append]
  repeat (first | rw [if_pos (by omega)] | rw [if_neg (by omega)])
  congr 1; omega

/-! ### liWord -/

theorem li_i (g : BitVec 3) (m : BitVec 7) (d : BitVec 5) (i : BitVec 17) (o l : Nat) (k : o + l ≤ 17) : (liWord g m d i).extractLsb' o l = (i).extractLsb' (o) l := by
  ext i hi; simp only [liWord, BitVec.getElem_extractLsb', BitVec.getLsbD_append]
  repeat (first | rw [if_pos (by omega)] | rw [if_neg (by omega)])

theorem li_d (g : BitVec 3) (m : BitVec 7) (d : BitVec 5) (i : BitVec 17) (o l : Nat) (h : 17 ≤ o) (k : o + l ≤ 22) : (liWord g m d i).extractLsb' o l = (d).extractLsb' (o - 17) l := by
  ext i hi; simp only [liWord, BitVec.getElem_extractLsb', BitVec.getLsbD_append]
  repeat (first | rw [if_pos (by omega)] | rw [if_neg (by omega)])
  congr 1; omega

theorem li_m (g : BitVec 3) (m : BitVec 7) (d : BitVec 5) (i : BitVec 17) (o l : Nat) (h : 22 ≤ o) (k : o + l ≤ 29) : (liWord g m d i).extractLsb' o l = (m).extractLsb' (o - 22) l := by
  ext i hi; simp only [liWord, BitVec.getElem_extractLsb', BitVec.getLsbD_append]
  repeat (first | rw [if_pos (by omega)] | rw [if_neg (by omega)])
  congr 1; omega

theorem li_g (g : BitVec 3) (m : BitVec 7) (d : BitVec 5) (i : BitVec 17) (o l : Nat) (h : 29 ≤ o) (k : o + l ≤ 32) : (liWord g m d i).extractLsb' o l = (g).extractLsb' (o - 29) l := by
  ext i hi; simp only [liWord, BitVec.getElem_extractLsb', BitVec.getLsbD_append]
  repeat (first | rw [if_pos (by omega)] | rw [if_neg (by omega)])
  congr 1; omega

/-! ### memWord -/

theorem mem_o (g : BitVec 3) (m : BitVec 7) (d : BitVec 5) (a : BitVec 5) (c : BitVec 4) (q : BitVec 8) (o l : Nat) (k : o + l ≤ 8) : (memWord g m d a c q).extractLsb' o l = (q).extractLsb' (o) l := by
  ext i hi; simp only [memWord, BitVec.getElem_extractLsb', BitVec.getLsbD_append]
  repeat (first | rw [if_pos (by omega)] | rw [if_neg (by omega)])

theorem mem_c (g : BitVec 3) (m : BitVec 7) (d : BitVec 5) (a : BitVec 5) (c : BitVec 4) (q : BitVec 8) (o l : Nat) (h : 8 ≤ o) (k : o + l ≤ 12) : (memWord g m d a c q).extractLsb' o l = (c).extractLsb' (o - 8) l := by
  ext i hi; simp only [memWord, BitVec.getElem_extractLsb', BitVec.getLsbD_append]
  repeat (first | rw [if_pos (by omega)] | rw [if_neg (by omega)])
  congr 1; omega

theorem mem_a (g : BitVec 3) (m : BitVec 7) (d : BitVec 5) (a : BitVec 5) (c : BitVec 4) (q : BitVec 8) (o l : Nat) (h : 12 ≤ o) (k : o + l ≤ 17) : (memWord g m d a c q).extractLsb' o l = (a).extractLsb' (o - 12) l := by
  ext i hi; simp only [memWord, BitVec.getElem_extractLsb', BitVec.getLsbD_append]
  repeat (first | rw [if_pos (by omega)] | rw [if_neg (by omega)])
  congr 1; omega

theorem mem_d (g : BitVec 3) (m : BitVec 7) (d : BitVec 5) (a : BitVec 5) (c : BitVec 4) (q : BitVec 8) (o l : Nat) (h : 17 ≤ o) (k : o + l ≤ 22) : (memWord g m d a c q).extractLsb' o l = (d).extractLsb' (o - 17) l := by
  ext i hi; simp only [memWord, BitVec.getElem_extractLsb', BitVec.getLsbD_append]
  repeat (first | rw [if_pos (by omega)] | rw [if_neg (by omega)])
  congr 1; omega

theorem mem_m (g : BitVec 3) (m : BitVec 7) (d : BitVec 5) (a : BitVec 5) (c : BitVec 4) (q : BitVec 8) (o l : Nat) (h : 22 ≤ o) (k : o + l ≤ 29) : (memWord g m d a c q).extractLsb' o l = (m).extractLsb' (o - 22) l := by
  ext i hi; simp only [memWord, BitVec.getElem_extractLsb', BitVec.getLsbD_append]
  repeat (first | rw [if_pos (by omega)] | rw [if_neg (by omega)])
  congr 1; omega

theorem mem_g (g : BitVec 3) (m : BitVec 7) (d : BitVec 5) (a : BitVec 5) (c : BitVec 4) (q : BitVec 8) (o l : Nat) (h : 29 ≤ o) (k : o + l ≤ 32) : (memWord g m d a c q).extractLsb' o l = (g).extractLsb' (o - 29) l := by
  ext i hi; simp only [memWord, BitVec.getElem_extractLsb', BitVec.getLsbD_append]
  repeat (first | rw [if_pos (by omega)] | rw [if_neg (by omega)])
  congr 1; omega

/-! ### brWord -/

theorem br_o (g : BitVec 3) (m : BitVec 7) (q : BitVec 22) (o l : Nat) (k : o + l ≤ 22) : (brWord g m q).extractLsb' o l = (q).extractLsb' (o) l := by
  ext i hi; simp only [brWord, BitVec.getElem_extractLsb', BitVec.getLsbD_append]
  repeat (first | rw [if_pos (by omega)] | rw [if_neg (by omega)])

theorem br_m (g : BitVec 3) (m : BitVec 7) (q : BitVec 22) (o l : Nat) (h : 22 ≤ o) (k : o + l ≤ 29) : (brWord g m q).extractLsb' o l = (m).extractLsb' (o - 22) l := by
  ext i hi; simp only [brWord, BitVec.getElem_extractLsb', BitVec.getLsbD_append]
  repeat (first | rw [if_pos (by omega)] | rw [if_neg (by omega)])
  congr 1; omega

theorem br_g (g : BitVec 3) (m : BitVec 7) (q : BitVec 22) (o l : Nat) (h : 29 ≤ o) (k : o + l ≤ 32) : (brWord g m q).extractLsb' o l = (g).extractLsb' (o - 29) l := by
  ext i hi; simp only [brWord, BitVec.getElem_extractLsb', BitVec.getLsbD_append]
  repeat (first | rw [if_pos (by omega)] | rw [if_neg (by omega)])
  congr 1; omega

/-! ### sysWord -/

theorem sys_i (g : BitVec 3) (m : BitVec 7) (f : BitVec 6) (i : BitVec 16) (o l : Nat) (k : o + l ≤ 16) : (sysWord g m f i).extractLsb' o l = (i).extractLsb' (o) l := by
  ext i hi; simp only [sysWord, BitVec.getElem_extractLsb', BitVec.getLsbD_append]
  repeat (first | rw [if_pos (by omega)] | rw [if_neg (by omega)])

theorem sys_f (g : BitVec 3) (m : BitVec 7) (f : BitVec 6) (i : BitVec 16) (o l : Nat) (h : 16 ≤ o) (k : o + l ≤ 22) : (sysWord g m f i).extractLsb' o l = (f).extractLsb' (o - 16) l := by
  ext i hi; simp only [sysWord, BitVec.getElem_extractLsb', BitVec.getLsbD_append]
  repeat (first | rw [if_pos (by omega)] | rw [if_neg (by omega)])
  congr 1; omega

theorem sys_m (g : BitVec 3) (m : BitVec 7) (f : BitVec 6) (i : BitVec 16) (o l : Nat) (h : 22 ≤ o) (k : o + l ≤ 29) : (sysWord g m f i).extractLsb' o l = (m).extractLsb' (o - 22) l := by
  ext i hi; simp only [sysWord, BitVec.getElem_extractLsb', BitVec.getLsbD_append]
  repeat (first | rw [if_pos (by omega)] | rw [if_neg (by omega)])
  congr 1; omega

theorem sys_g (g : BitVec 3) (m : BitVec 7) (f : BitVec 6) (i : BitVec 16) (o l : Nat) (h : 29 ≤ o) (k : o + l ≤ 32) : (sysWord g m f i).extractLsb' o l = (g).extractLsb' (o - 29) l := by
  ext i hi; simp only [sysWord, BitVec.getElem_extractLsb', BitVec.getLsbD_append]
  repeat (first | rw [if_pos (by omega)] | rw [if_neg (by omega)])
  congr 1; omega

theorem rr_major (g : BitVec 3) (m : BitVec 7) (d : BitVec 5) (a : BitVec 5) (b : BitVec 5) (f : BitVec 7) : fMajor (rrWord g m d a b f) = m := by
  unfold fMajor; rw [rr_m _ _ _ _ _ _ _ _ (by omega) (by omega)]; exact slice_all m
theorem ri_major (g : BitVec 3) (m : BitVec 7) (d : BitVec 5) (a : BitVec 5) (i : BitVec 12) : fMajor (riWord g m d a i) = m := by
  unfold fMajor; rw [ri_m _ _ _ _ _ _ _ (by omega) (by omega)]; exact slice_all m
theorem li_major (g : BitVec 3) (m : BitVec 7) (d : BitVec 5) (i : BitVec 17) : fMajor (liWord g m d i) = m := by
  unfold fMajor; rw [li_m _ _ _ _ _ _ (by omega) (by omega)]; exact slice_all m
theorem mem_major (g : BitVec 3) (m : BitVec 7) (d : BitVec 5) (a : BitVec 5) (c : BitVec 4) (q : BitVec 8) : fMajor (memWord g m d a c q) = m := by
  unfold fMajor; rw [mem_m _ _ _ _ _ _ _ _ (by omega) (by omega)]; exact slice_all m
theorem br_major (g : BitVec 3) (m : BitVec 7) (q : BitVec 22) : fMajor (brWord g m q) = m := by
  unfold fMajor; rw [br_m _ _ _ _ _ (by omega) (by omega)]; exact slice_all m
theorem sys_major (g : BitVec 3) (m : BitVec 7) (f : BitVec 6) (i : BitVec 16) : fMajor (sysWord g m f i) = m := by
  unfold fMajor; rw [sys_m _ _ _ _ _ _ (by omega) (by omega)]; exact slice_all m
theorem rr_zeros (g : BitVec 3) (m f : BitVec 7) : (rrWord g m 0#5 0#5 0#5 f).extractLsb' 7 15 = 0#15 := by
  ext i hi; simp only [rrWord, BitVec.getElem_extractLsb', BitVec.getLsbD_append]
  rw [if_neg (by omega)]
  (repeat' split) <;> first | simp; done | (exfalso; omega)
theorem rr_zeros4 (g : BitVec 3) (m : BitVec 7) : (rrWord g m 0#5 0#5 0#5 0x01#7).extractLsb' 4 18 = 0#18 := by
  ext i hi; simp only [rrWord, BitVec.getElem_extractLsb', BitVec.getLsbD_append]
  (repeat' split) <;> first | simp; done | (exfalso; omega) | (simp; omega)

/-! ### vWord -/

theorem v_mod (c : BitVec 8) (w : VWord) : (vWord c w).extractLsb' 0 3 = w.mod := by
  ext i hi; simp only [vWord, BitVec.getElem_extractLsb', BitVec.getLsbD_append]
  repeat (first | rw [if_pos (by omega)] | rw [if_neg (by omega)])
  rw [← BitVec.getLsbD_eq_getElem hi]; congr 1; omega

theorem v_round (c : BitVec 8) (w : VWord) : (vWord c w).extractLsb' 3 3 = w.round := by
  ext i hi; simp only [vWord, BitVec.getElem_extractLsb', BitVec.getLsbD_append]
  repeat (first | rw [if_pos (by omega)] | rw [if_neg (by omega)])
  rw [← BitVec.getLsbD_eq_getElem hi]; congr 1; omega

theorem v_stage (c : BitVec 8) (w : VWord) : (vWord c w).extractLsb' 6 3 = w.stage := by
  ext i hi; simp only [vWord, BitVec.getElem_extractLsb', BitVec.getLsbD_append]
  repeat (first | rw [if_pos (by omega)] | rw [if_neg (by omega)])
  rw [← BitVec.getLsbD_eq_getElem hi]; congr 1; omega

theorem v_mask (c : BitVec 8) (w : VWord) : (vWord c w).extractLsb' 9 3 = w.mask := by
  ext i hi; simp only [vWord, BitVec.getElem_extractLsb', BitVec.getLsbD_append]
  repeat (first | rw [if_pos (by omega)] | rw [if_neg (by omega)])
  rw [← BitVec.getLsbD_eq_getElem hi]; congr 1; omega

theorem v_vc (c : BitVec 8) (w : VWord) : (vWord c w).extractLsb' 12 7 = w.vc := by
  ext i hi; simp only [vWord, BitVec.getElem_extractLsb', BitVec.getLsbD_append]
  repeat (first | rw [if_pos (by omega)] | rw [if_neg (by omega)])
  rw [← BitVec.getLsbD_eq_getElem hi]; congr 1; omega

theorem v_vb (c : BitVec 8) (w : VWord) : (vWord c w).extractLsb' 19 7 = w.vb := by
  ext i hi; simp only [vWord, BitVec.getElem_extractLsb', BitVec.getLsbD_append]
  repeat (first | rw [if_pos (by omega)] | rw [if_neg (by omega)])
  rw [← BitVec.getLsbD_eq_getElem hi]; congr 1; omega

theorem v_va (c : BitVec 8) (w : VWord) : (vWord c w).extractLsb' 26 7 = w.va := by
  ext i hi; simp only [vWord, BitVec.getElem_extractLsb', BitVec.getLsbD_append]
  repeat (first | rw [if_pos (by omega)] | rw [if_neg (by omega)])
  rw [← BitVec.getLsbD_eq_getElem hi]; congr 1; omega

theorem v_vd (c : BitVec 8) (w : VWord) : (vWord c w).extractLsb' 33 7 = w.vd := by
  ext i hi; simp only [vWord, BitVec.getElem_extractLsb', BitVec.getLsbD_append]
  repeat (first | rw [if_pos (by omega)] | rw [if_neg (by omega)])
  rw [← BitVec.getLsbD_eq_getElem hi]; congr 1; omega

theorem v_op (c : BitVec 8) (w : VWord) : (vWord c w).extractLsb' 40 8 = c := by
  ext i hi; simp only [vWord, BitVec.getElem_extractLsb', BitVec.getLsbD_append]
  repeat (first | rw [if_pos (by omega)] | rw [if_neg (by omega)])
  rw [← BitVec.getLsbD_eq_getElem hi]; congr 1; omega

theorem v_signal (c : BitVec 8) (w : VWord) : (vWord c w).extractLsb' 48 8 = w.signal := by
  ext i hi; simp only [vWord, BitVec.getElem_extractLsb', BitVec.getLsbD_append]
  repeat (first | rw [if_pos (by omega)] | rw [if_neg (by omega)])
  rw [← BitVec.getLsbD_eq_getElem hi]; congr 1; omega

theorem v_wait (c : BitVec 8) (w : VWord) : (vWord c w).extractLsb' 56 8 = w.wait := by
  ext i hi; simp only [vWord, BitVec.getElem_extractLsb', BitVec.getLsbD_append]
  repeat (first | rw [if_pos (by omega)] | rw [if_neg (by omega)])
  rw [← BitVec.getLsbD_eq_getElem hi]; congr 1; omega

/-! ### eWord -/

theorem e_mod (c : BitVec 8) (w : EWord) : (eWord c w).extractLsb' 0 3 = w.mod := by
  ext i hi; simp only [eWord, BitVec.getElem_extractLsb', BitVec.getLsbD_append]
  repeat (first | rw [if_pos (by omega)] | rw [if_neg (by omega)])
  rw [← BitVec.getLsbD_eq_getElem hi]; congr 1; omega

theorem e_round (c : BitVec 8) (w : EWord) : (eWord c w).extractLsb' 3 3 = w.round := by
  ext i hi; simp only [eWord, BitVec.getElem_extractLsb', BitVec.getLsbD_append]
  repeat (first | rw [if_pos (by omega)] | rw [if_neg (by omega)])
  rw [← BitVec.getLsbD_eq_getElem hi]; congr 1; omega

theorem e_cls (c : BitVec 8) (w : EWord) : (eWord c w).extractLsb' 6 4 = w.cls := by
  ext i hi; simp only [eWord, BitVec.getElem_extractLsb', BitVec.getLsbD_append]
  repeat (first | rw [if_pos (by omega)] | rw [if_neg (by omega)])
  rw [← BitVec.getLsbD_eq_getElem hi]; congr 1; omega

theorem e_args (c : BitVec 8) (w : EWord) : (eWord c w).extractLsb' 10 30 = w.args := by
  ext i hi; simp only [eWord, BitVec.getElem_extractLsb', BitVec.getLsbD_append]
  repeat (first | rw [if_pos (by omega)] | rw [if_neg (by omega)])
  rw [← BitVec.getLsbD_eq_getElem hi]; congr 1; omega

theorem e_op (c : BitVec 8) (w : EWord) : (eWord c w).extractLsb' 40 8 = c := by
  ext i hi; simp only [eWord, BitVec.getElem_extractLsb', BitVec.getLsbD_append]
  repeat (first | rw [if_pos (by omega)] | rw [if_neg (by omega)])
  rw [← BitVec.getLsbD_eq_getElem hi]; congr 1; omega

theorem e_signal (c : BitVec 8) (w : EWord) : (eWord c w).extractLsb' 48 8 = w.signal := by
  ext i hi; simp only [eWord, BitVec.getElem_extractLsb', BitVec.getLsbD_append]
  repeat (first | rw [if_pos (by omega)] | rw [if_neg (by omega)])
  rw [← BitVec.getLsbD_eq_getElem hi]; congr 1; omega

theorem e_wait (c : BitVec 8) (w : EWord) : (eWord c w).extractLsb' 56 8 = w.wait := by
  ext i hi; simp only [eWord, BitVec.getElem_extractLsb', BitVec.getLsbD_append]
  repeat (first | rw [if_pos (by omega)] | rw [if_neg (by omega)])
  rw [← BitVec.getLsbD_eq_getElem hi]; congr 1; omega

theorem v_fields (c : BitVec 8) (w : VWord) : vFields (vWord c w) = w := by
  simp only [vFields, cWait, cSignal, v_wait, v_signal, v_vd, v_va, v_vb, v_vc, v_mask, v_stage, v_round, v_mod]
theorem e_fields (c : BitVec 8) (w : EWord) : eFields (eWord c w) = w := by
  simp only [eFields, cWait, cSignal, e_wait, e_signal, e_args, e_cls, e_round, e_mod]
theorem ext_mark (p : BitVec 56) : cWait (extWord p) = 0xFF#8 := by
  unfold cWait extWord; rw [slice_high _ _ _ _ (by omega), slice_all]
theorem ext_payload (p : BitVec 56) : xPayload (extWord p) = p := by
  unfold xPayload extWord; rw [slice_low _ _ _ _ (by omega), slice_all]

end Sys2Proof.Laws
end

