-- ==== Sys2Proof/Laws/Maps.lean ====
section
/-! SUPPORT. What the operations on sparse maps do: a read after a write, and the rising order of the keys. -/
namespace Sys2Proof.Machine

variable {α : Type}

theorem mapFind_mapSet (j k : Nat) (v : α) (m : SMap α) : mapFind j (mapSet k v m) = if j = k then some v else mapFind j m := by
  induction m with
  | nil => simp [mapSet, mapFind, eq_comm]
  | cons e r ih =>
    obtain ⟨i, u⟩ := e
    simp only [mapSet]
    split
    · rename_i h; subst h; by_cases h2 : j = i <;> simp [mapFind, h2, eq_comm]
    · split
      · by_cases h2 : j = k <;> simp [mapFind, h2, eq_comm]
      · simp only [mapFind, ih]; by_cases h2 : i = j <;> simp_all

theorem mapFind_mapDel (j k : Nat) (m : SMap α) : mapFind j (mapDel k m) = if j = k then none else mapFind j m := by
  induction m with
  | nil => simp [mapDel, mapFind]
  | cons e r ih =>
    obtain ⟨i, u⟩ := e
    simp only [mapDel] at ih ⊢
    by_cases h : i = k <;> by_cases h2 : i = j <;> by_cases h3 : j = k <;> simp_all [List.filter, mapFind]

theorem mapFind_mapPut [DecidableEq α] (d : α) (j k : Nat) (v : α) (m : SMap α) :
    mapFind j (mapPut d k v m) = if j = k then (if v = d then none else some v) else mapFind j m := by
  unfold mapPut; split <;> simp_all [mapFind_mapSet, mapFind_mapDel]

theorem mapGet_mapSet (d : α) (j k : Nat) (v : α) (m : SMap α) : mapGet d j (mapSet k v m) = if j = k then v else mapGet d j m := by
  simp only [mapGet, mapFind_mapSet]; split <;> rfl

@[simp] theorem mapGet_mapSet_self (d : α) (k : Nat) (v : α) (m : SMap α) : mapGet d k (mapSet k v m) = v := by simp [mapGet_mapSet]

theorem mapGet_mapDel (d : α) (j k : Nat) (m : SMap α) : mapGet d j (mapDel k m) = if j = k then d else mapGet d j m := by
  simp only [mapGet, mapFind_mapDel]; split <;> rfl

theorem mapGet_mapPut [DecidableEq α] (d : α) (j k : Nat) (v : α) (m : SMap α) : mapGet d j (mapPut d k v m) = if j = k then v else mapGet d j m := by
  simp only [mapGet, mapFind_mapPut]; split
  · split <;> simp_all
  · rfl

theorem mapGet_mapMod (d : α) (j k : Nat) (f : α → α) (m : SMap α) : mapGet d j (mapMod d k f m) = if j = k then f (mapGet d k m) else mapGet d j m := by
  simp [mapMod, mapGet_mapSet]

@[simp] theorem mapSet_mapSet (k : Nat) (v u : α) (m : SMap α) : mapSet k v (mapSet k u m) = mapSet k v m := by
  induction m with
  | nil => simp [mapSet]
  | cons e r ih =>
    obtain ⟨i, w⟩ := e
    simp only [mapSet]
    split
    · simp [mapSet]
    · split
      · simp [mapSet]
      · rename_i h1 h2
        simp [mapSet, h1, h2, ih]

theorem mapFind_mapDelRange (j lo hi : Nat) (m : SMap α) : mapFind j (mapDelRange lo hi m) = if lo ≤ j ∧ j < hi then none else mapFind j m := by
  induction m with
  | nil => simp [mapDelRange, mapFind]
  | cons e r ih =>
    obtain ⟨i, u⟩ := e
    simp only [mapDelRange] at ih ⊢
    by_cases h : i < lo ∨ hi ≤ i
    · rw [List.filter_cons_of_pos (by simpa using h)]
      simp only [mapFind, ih]
      by_cases h2 : i = j
      · subst h2; rw [if_pos rfl, if_neg (by omega), if_pos rfl]
      · simp [h2]
    · rw [List.filter_cons_of_neg (by simpa using h), ih]
      by_cases h2 : i = j
      · subst h2; rw [if_pos (by omega), if_pos (by omega)]
      · simp [mapFind, h2]

/-! ### The rising order of the keys -/

/-- A strictly rising list, by the library's predicate. -/
theorem rising_iff (l : List Nat) : rising l = true ↔ l.Pairwise (· < ·) := by
  induction l with
  | nil => simp [rising]
  | cons a r ih =>
    cases r with
    | nil => simp [rising]
    | cons b t =>
      simp only [rising, Bool.and_eq_true, decide_eq_true_eq, ih, List.pairwise_cons]
      constructor
      · rintro ⟨hab, hbt, ht⟩
        refine ⟨?_, hbt, ht⟩
        intro x hx
        rcases List.mem_cons.mp hx with rfl | hx
        · exact hab
        · exact Nat.lt_trans hab (hbt x hx)
      · rintro ⟨ha, hbt, ht⟩
        exact ⟨ha b (by simp), hbt, ht⟩

theorem mem_mapKeys_mapSet (k i : Nat) (v : α) (m : SMap α) : i ∈ mapKeys (mapSet k v m) → i = k ∨ i ∈ mapKeys m := by
  induction m with
  | nil => simp [mapSet, mapKeys]
  | cons e r ih =>
    obtain ⟨j, u⟩ := e
    simp only [mapSet, mapKeys] at ih ⊢
    split
    · rename_i hjk
      subst hjk
      intro hi; exact .inr hi
    · split
      · intro hi
        rcases List.mem_cons.mp hi with h | h
        · exact .inl h
        · exact .inr h
      · simp only [List.map_cons, List.mem_cons]
        rintro (h | h)
        · exact .inr (.inl h)
        · exact (ih h).imp_right .inr

theorem rising_mapSet (k : Nat) (v : α) (m : SMap α) (h : rising (mapKeys m) = true) : rising (mapKeys (mapSet k v m)) = true := by
  rw [rising_iff] at *
  induction m with
  | nil => simp [mapSet, mapKeys]
  | cons e r ih =>
    obtain ⟨j, u⟩ := e
    simp only [mapKeys, List.map_cons, List.pairwise_cons] at h ih ⊢
    simp only [mapSet]
    split
    · rename_i e; subst e; simpa using h
    · split
      · rename_i hkj
        simp only [List.map_cons, List.pairwise_cons]
        refine ⟨?_, h⟩
        intro x hx
        rcases List.mem_cons.mp hx with rfl | hx
        · exact hkj
        · exact Nat.lt_trans hkj (h.1 x hx)
      · simp only [List.map_cons, List.pairwise_cons]
        refine ⟨?_, ih h.2⟩
        intro x hx
        rcases mem_mapKeys_mapSet k x v r hx with rfl | hx
        · omega
        · exact h.1 x hx

theorem rising_filter (p : Nat × α → Bool) (m : SMap α) (h : rising (mapKeys m) = true) : rising (mapKeys (m.filter p)) = true := by
  rw [rising_iff] at *
  exact h.sublist (List.filter_sublist.map _)

theorem rising_mapPut [DecidableEq α] (d : α) (k : Nat) (v : α) (m : SMap α) (h : rising (mapKeys m) = true) : rising (mapKeys (mapPut d k v m)) = true := by
  unfold mapPut; split
  · exact rising_filter _ m h
  · exact rising_mapSet k v m h

end Sys2Proof.Machine
end

