-- ==== Sys2Proof/Laws/Memory.lean ====
section
/-! SUPPORT. What the operations on the bytes of memory do: a read after a write, and the canonical form. -/
namespace Sys2Proof.Machine

theorem memByte_memPut (m : List Host.Cell) (a x : Nat) (b : Byte) : memByte (memPut m a b) x = if x = a then b else memByte m x := by
  simp only [memByte, memPut, mapGet_mapPut]

/-- What writing a list of bytes leaves at an address. -/
theorem memByte_memPutBytes (l : List Byte) (m : List Host.Cell) (a x : Nat) :
    memByte (memPutBytes m a l) x = if a ≤ x ∧ x < a + l.length then l.getD (x - a) 0 else memByte m x := by
  induction l generalizing m a with
  | nil => rw [if_neg (by simp only [List.length_nil]; omega)]; rfl
  | cons b r ih =>
    simp only [memPutBytes, ih, memByte_memPut, List.length_cons]
    by_cases h : x = a
    · subst h; rw [if_neg (by omega)]; simp
    · by_cases h2 : a + 1 ≤ x ∧ x < a + 1 + r.length
      · rw [if_pos h2, if_pos (by omega), show x - a = (x - (a + 1)) + 1 by omega]; simp
      · rw [if_neg h2, if_neg h, if_neg (by omega)]

theorem memByte_memPutNat (n : Nat) (m : List Host.Cell) (a v x : Nat) :
    memByte (memPutNat m a v n) x = if a ≤ x ∧ x < a + n then BitVec.ofNat 8 (v / 256 ^ (x - a)) else memByte m x := by
  induction n generalizing m a v with
  | zero => rw [if_neg (by omega)]; rfl
  | succ n ih =>
    simp only [memPutNat, ih, memByte_memPut]
    by_cases h : x = a
    · subst h; rw [if_neg (by omega)]; simp
    · by_cases h2 : a + 1 ≤ x ∧ x < a + 1 + n
      · rw [if_pos h2, if_pos (by omega), show x - a = (x - (a + 1)) + 1 by omega, Nat.pow_succ, Nat.mul_comm, Nat.div_div_eq_div_mul]
      · rw [if_neg h2, if_neg h, if_neg (by omega)]

theorem memByte_memClear (m : List Host.Cell) (a n x : Nat) : memByte (memClear m a n) x = if a ≤ x ∧ x < a + n then 0 else memByte m x := by
  simp only [memByte, memClear, mapGet, mapFind_mapDelRange]; split <;> rfl

/-- A read sees only the bytes it reads. -/
theorem memNat_congr (m m' : List Host.Cell) (n a : Nat) (h : ∀ x, a ≤ x → x < a + n → memByte m x = memByte m' x) : memNat m a n = memNat m' a n := by
  induction n generalizing a with
  | zero => rfl
  | succ n ih =>
    simp only [memNat]
    rw [h a (by omega) (by omega), ih (a + 1) fun x hx hy => h x (by omega) (by omega)]

theorem memNat_lt (m : List Host.Cell) (n a : Nat) : memNat m a n < 256 ^ n := by
  induction n generalizing a with
  | zero => simp [memNat]
  | succ n ih =>
    have h := ih (a + 1)
    have hb := (memByte m a).isLt
    simp only [memNat, Nat.pow_succ]
    omega

/-- The number just written is read back (R6). -/
theorem memNat_memPutNat (n : Nat) (m : List Host.Cell) (a v : Nat) : memNat (memPutNat m a v n) a n = v % 256 ^ n := by
  induction n generalizing m a v with
  | zero => simp [memNat, Nat.mod_one]
  | succ n ih =>
    simp only [memNat, memPutNat, ih, memByte_memPutNat, memByte_memPut]
    rw [if_neg (by omega)]
    simp only [if_true, BitVec.toNat_ofNat]
    rw [show 256 ^ (n + 1) = 256 * 256 ^ n from by rw [Nat.pow_succ, Nat.mul_comm], Nat.mod_mul]

/-! ### The canonical form (Memory.wf) -/

theorem wf_nil : Memory.wf [] = true := rfl

theorem mem_mapSet {α : Type} (k : Nat) (v : α) (m : SMap α) (e : Nat × α) (h : e ∈ mapSet k v m) : e = (k, v) ∨ e ∈ m := by
  induction m with
  | nil => simpa [mapSet] using h
  | cons x r ih =>
    obtain ⟨i, u⟩ := x
    simp only [mapSet] at h
    split at h
    · rcases List.mem_cons.mp h with h | h
      · exact .inl h
      · exact .inr (List.mem_cons_of_mem _ h)
    · split at h
      · exact (List.mem_cons.mp h).imp_right id
      · rcases List.mem_cons.mp h with h | h
        · exact .inr (h ▸ List.mem_cons_self)
        · exact (ih h).imp_right (List.mem_cons_of_mem _)

theorem wf_memPut (m : List Host.Cell) (a : Nat) (b : Byte) (h : Memory.wf m = true) : Memory.wf (memPut m a b) = true := by
  simp only [Memory.wf, Bool.and_eq_true, List.all_eq_true] at h ⊢
  refine ⟨rising_mapPut 0#8 a b m h.1, ?_⟩
  intro e he
  unfold memPut mapPut at he
  split at he
  · exact h.2 e (List.mem_filter.mp he).1
  · rename_i hb
    rcases mem_mapSet _ _ _ _ he with rfl | he
    · simpa using hb
    · exact h.2 e he

theorem wf_memPutNat (n : Nat) (m : List Host.Cell) (a v : Nat) (h : Memory.wf m = true) : Memory.wf (memPutNat m a v n) = true := by
  induction n generalizing m a v with
  | zero => exact h
  | succ n ih => exact ih _ _ _ (wf_memPut m a _ h)

theorem wf_memPutBytes (l : List Byte) (m : List Host.Cell) (a : Nat) (h : Memory.wf m = true) : Memory.wf (memPutBytes m a l) = true := by
  induction l generalizing m a with
  | nil => exact h
  | cons b r ih => exact ih _ _ (wf_memPut m a b h)

theorem wf_memClear (m : List Host.Cell) (a n : Nat) (h : Memory.wf m = true) : Memory.wf (memClear m a n) = true := by
  simp only [Memory.wf, Bool.and_eq_true, List.all_eq_true] at h ⊢
  exact ⟨rising_filter _ m h.1, fun e he => h.2 e (List.mem_filter.mp he).1⟩

/-- The memory of the state after reset has the canonical form. -/
theorem wf_reset : Memory.wf State.reset.mem = true := rfl

end Sys2Proof.Machine
end

