-- ==== Sys2Proof/Laws/State.lean ====
section
/-! SUPPORT. One lemma per field of the state and per update: what the accessors of Maps.lean and the operations of Ops.lean that
change one named part leave alone, and what reading that part then gives. -/
namespace Sys2Proof.Machine

/-! ### setCore -/

@[simp] theorem setCore_now (s : State) (c : Nat) (k : Core) : (s.setCore c k).now = s.now := rfl
@[simp] theorem setCore_agenda (s : State) (c : Nat) (k : Core) : (s.setCore c k).agenda = s.agenda := rfl
@[simp] theorem setCore_cur (s : State) (c : Nat) (k : Core) : (s.setCore c k).cur = s.cur := rfl
@[simp] theorem setCore_inputs (s : State) (c : Nat) (k : Core) : (s.setCore c k).inputs = s.inputs := rfl
@[simp] theorem setCore_evq (s : State) (c : Nat) (k : Core) : (s.setCore c k).evq = s.evq := rfl
@[simp] theorem setCore_flights (s : State) (c : Nat) (k : Core) : (s.setCore c k).flights = s.flights := rfl
@[simp] theorem setCore_nextId (s : State) (c : Nat) (k : Core) : (s.setCore c k).nextId = s.nextId := rfl
@[simp] theorem setCore_free (s : State) (c : Nat) (k : Core) : (s.setCore c k).free = s.free := rfl
@[simp] theorem setCore_mem (s : State) (c : Nat) (k : Core) : (s.setCore c k).mem = s.mem := rfl
@[simp] theorem setCore_full (s : State) (c : Nat) (k : Core) : (s.setCore c k).full = s.full := rfl
@[simp] theorem setCore_poison (s : State) (c : Nat) (k : Core) : (s.setCore c k).poison = s.poison := rfl
@[simp] theorem setCore_shadow (s : State) (c : Nat) (k : Core) : (s.setCore c k).shadow = s.shadow := rfl
@[simp] theorem setCore_arel (s : State) (c : Nat) (k : Core) : (s.setCore c k).arel = s.arel := rfl
@[simp] theorem setCore_acc (s : State) (c : Nat) (k : Core) : (s.setCore c k).acc = s.acc := rfl
@[simp] theorem setCore_accPoison (s : State) (c : Nat) (k : Core) : (s.setCore c k).accPoison = s.accPoison := rfl
@[simp] theorem setCore_clusters (s : State) (c : Nat) (k : Core) : (s.setCore c k).clusters = s.clusters := rfl
@[simp] theorem setCore_ctxs (s : State) (c : Nat) (k : Core) : (s.setCore c k).ctxs = s.ctxs := rfl
@[simp] theorem setCore_pools (s : State) (c : Nat) (k : Core) : (s.setCore c k).pools = s.pools := rfl
@[simp] theorem setCore_dies (s : State) (c : Nat) (k : Core) : (s.setCore c k).dies = s.dies := rfl
@[simp] theorem setCore_walks (s : State) (c : Nat) (k : Core) : (s.setCore c k).walks = s.walks := rfl
@[simp] theorem setCore_sb (s : State) (c : Nat) (k : Core) : (s.setCore c k).sb = s.sb := rfl
@[simp] theorem setCore_trBusy (s : State) (c : Nat) (k : Core) : (s.setCore c k).trBusy = s.trBusy := rfl
@[simp] theorem setCore_trWait (s : State) (c : Nat) (k : Core) : (s.setCore c k).trWait = s.trWait := rfl
@[simp] theorem setCore_ports (s : State) (c : Nat) (k : Core) : (s.setCore c k).ports = s.ports := rfl
@[simp] theorem setCore_remote (s : State) (c : Nat) (k : Core) : (s.setCore c k).remote = s.remote := rfl
@[simp] theorem setCore_sent (s : State) (c : Nat) (k : Core) : (s.setCore c k).sent = s.sent := rfl
@[simp] theorem setCore_tagRel (s : State) (c : Nat) (k : Core) : (s.setCore c k).tagRel = s.tagRel := rfl
@[simp] theorem setCore_images (s : State) (c : Nat) (k : Core) : (s.setCore c k).images = s.images := rfl
@[simp] theorem setCore_saves (s : State) (c : Nat) (k : Core) : (s.setCore c k).saves = s.saves := rfl
@[simp] theorem setCore_sys (s : State) (c : Nat) (k : Core) : (s.setCore c k).sys = s.sys := rfl
@[simp] theorem setCore_xfers (s : State) (c : Nat) (k : Core) : (s.setCore c k).xfers = s.xfers := rfl
@[simp] theorem setCore_retired (s : State) (c : Nat) (k : Core) : (s.setCore c k).retired = s.retired := rfl
@[simp] theorem setCore_away (s : State) (c : Nat) (k : Core) : (s.setCore c k).away = s.away := rfl
@[simp] theorem setCore_bar2 (s : State) (c : Nat) (k : Core) : (s.setCore c k).bar2 = s.bar2 := rfl
@[simp] theorem setCore_dones (s : State) (c : Nat) (k : Core) : (s.setCore c k).dones = s.dones := rfl

/-! ### modCore -/

@[simp] theorem modCore_now (s : State) (c : Nat) (f : Core → Core) : (s.modCore c f).now = s.now := rfl
@[simp] theorem modCore_agenda (s : State) (c : Nat) (f : Core → Core) : (s.modCore c f).agenda = s.agenda := rfl
@[simp] theorem modCore_cur (s : State) (c : Nat) (f : Core → Core) : (s.modCore c f).cur = s.cur := rfl
@[simp] theorem modCore_inputs (s : State) (c : Nat) (f : Core → Core) : (s.modCore c f).inputs = s.inputs := rfl
@[simp] theorem modCore_evq (s : State) (c : Nat) (f : Core → Core) : (s.modCore c f).evq = s.evq := rfl
@[simp] theorem modCore_flights (s : State) (c : Nat) (f : Core → Core) : (s.modCore c f).flights = s.flights := rfl
@[simp] theorem modCore_nextId (s : State) (c : Nat) (f : Core → Core) : (s.modCore c f).nextId = s.nextId := rfl
@[simp] theorem modCore_free (s : State) (c : Nat) (f : Core → Core) : (s.modCore c f).free = s.free := rfl
@[simp] theorem modCore_mem (s : State) (c : Nat) (f : Core → Core) : (s.modCore c f).mem = s.mem := rfl
@[simp] theorem modCore_full (s : State) (c : Nat) (f : Core → Core) : (s.modCore c f).full = s.full := rfl
@[simp] theorem modCore_poison (s : State) (c : Nat) (f : Core → Core) : (s.modCore c f).poison = s.poison := rfl
@[simp] theorem modCore_shadow (s : State) (c : Nat) (f : Core → Core) : (s.modCore c f).shadow = s.shadow := rfl
@[simp] theorem modCore_arel (s : State) (c : Nat) (f : Core → Core) : (s.modCore c f).arel = s.arel := rfl
@[simp] theorem modCore_acc (s : State) (c : Nat) (f : Core → Core) : (s.modCore c f).acc = s.acc := rfl
@[simp] theorem modCore_accPoison (s : State) (c : Nat) (f : Core → Core) : (s.modCore c f).accPoison = s.accPoison := rfl
@[simp] theorem modCore_clusters (s : State) (c : Nat) (f : Core → Core) : (s.modCore c f).clusters = s.clusters := rfl
@[simp] theorem modCore_ctxs (s : State) (c : Nat) (f : Core → Core) : (s.modCore c f).ctxs = s.ctxs := rfl
@[simp] theorem modCore_pools (s : State) (c : Nat) (f : Core → Core) : (s.modCore c f).pools = s.pools := rfl
@[simp] theorem modCore_dies (s : State) (c : Nat) (f : Core → Core) : (s.modCore c f).dies = s.dies := rfl
@[simp] theorem modCore_walks (s : State) (c : Nat) (f : Core → Core) : (s.modCore c f).walks = s.walks := rfl
@[simp] theorem modCore_sb (s : State) (c : Nat) (f : Core → Core) : (s.modCore c f).sb = s.sb := rfl
@[simp] theorem modCore_trBusy (s : State) (c : Nat) (f : Core → Core) : (s.modCore c f).trBusy = s.trBusy := rfl
@[simp] theorem modCore_trWait (s : State) (c : Nat) (f : Core → Core) : (s.modCore c f).trWait = s.trWait := rfl
@[simp] theorem modCore_ports (s : State) (c : Nat) (f : Core → Core) : (s.modCore c f).ports = s.ports := rfl
@[simp] theorem modCore_remote (s : State) (c : Nat) (f : Core → Core) : (s.modCore c f).remote = s.remote := rfl
@[simp] theorem modCore_sent (s : State) (c : Nat) (f : Core → Core) : (s.modCore c f).sent = s.sent := rfl
@[simp] theorem modCore_tagRel (s : State) (c : Nat) (f : Core → Core) : (s.modCore c f).tagRel = s.tagRel := rfl
@[simp] theorem modCore_images (s : State) (c : Nat) (f : Core → Core) : (s.modCore c f).images = s.images := rfl
@[simp] theorem modCore_saves (s : State) (c : Nat) (f : Core → Core) : (s.modCore c f).saves = s.saves := rfl
@[simp] theorem modCore_sys (s : State) (c : Nat) (f : Core → Core) : (s.modCore c f).sys = s.sys := rfl
@[simp] theorem modCore_xfers (s : State) (c : Nat) (f : Core → Core) : (s.modCore c f).xfers = s.xfers := rfl
@[simp] theorem modCore_retired (s : State) (c : Nat) (f : Core → Core) : (s.modCore c f).retired = s.retired := rfl
@[simp] theorem modCore_away (s : State) (c : Nat) (f : Core → Core) : (s.modCore c f).away = s.away := rfl
@[simp] theorem modCore_bar2 (s : State) (c : Nat) (f : Core → Core) : (s.modCore c f).bar2 = s.bar2 := rfl
@[simp] theorem modCore_dones (s : State) (c : Nat) (f : Core → Core) : (s.modCore c f).dones = s.dones := rfl

/-! ### setCluster -/

@[simp] theorem setCluster_now (s : State) (c : Nat) (k : Cluster) : (s.setCluster c k).now = s.now := rfl
@[simp] theorem setCluster_agenda (s : State) (c : Nat) (k : Cluster) : (s.setCluster c k).agenda = s.agenda := rfl
@[simp] theorem setCluster_cur (s : State) (c : Nat) (k : Cluster) : (s.setCluster c k).cur = s.cur := rfl
@[simp] theorem setCluster_inputs (s : State) (c : Nat) (k : Cluster) : (s.setCluster c k).inputs = s.inputs := rfl
@[simp] theorem setCluster_evq (s : State) (c : Nat) (k : Cluster) : (s.setCluster c k).evq = s.evq := rfl
@[simp] theorem setCluster_flights (s : State) (c : Nat) (k : Cluster) : (s.setCluster c k).flights = s.flights := rfl
@[simp] theorem setCluster_nextId (s : State) (c : Nat) (k : Cluster) : (s.setCluster c k).nextId = s.nextId := rfl
@[simp] theorem setCluster_free (s : State) (c : Nat) (k : Cluster) : (s.setCluster c k).free = s.free := rfl
@[simp] theorem setCluster_mem (s : State) (c : Nat) (k : Cluster) : (s.setCluster c k).mem = s.mem := rfl
@[simp] theorem setCluster_full (s : State) (c : Nat) (k : Cluster) : (s.setCluster c k).full = s.full := rfl
@[simp] theorem setCluster_poison (s : State) (c : Nat) (k : Cluster) : (s.setCluster c k).poison = s.poison := rfl
@[simp] theorem setCluster_shadow (s : State) (c : Nat) (k : Cluster) : (s.setCluster c k).shadow = s.shadow := rfl
@[simp] theorem setCluster_arel (s : State) (c : Nat) (k : Cluster) : (s.setCluster c k).arel = s.arel := rfl
@[simp] theorem setCluster_acc (s : State) (c : Nat) (k : Cluster) : (s.setCluster c k).acc = s.acc := rfl
@[simp] theorem setCluster_accPoison (s : State) (c : Nat) (k : Cluster) : (s.setCluster c k).accPoison = s.accPoison := rfl
@[simp] theorem setCluster_cores (s : State) (c : Nat) (k : Cluster) : (s.setCluster c k).cores = s.cores := rfl
@[simp] theorem setCluster_ctxs (s : State) (c : Nat) (k : Cluster) : (s.setCluster c k).ctxs = s.ctxs := rfl
@[simp] theorem setCluster_pools (s : State) (c : Nat) (k : Cluster) : (s.setCluster c k).pools = s.pools := rfl
@[simp] theorem setCluster_dies (s : State) (c : Nat) (k : Cluster) : (s.setCluster c k).dies = s.dies := rfl
@[simp] theorem setCluster_walks (s : State) (c : Nat) (k : Cluster) : (s.setCluster c k).walks = s.walks := rfl
@[simp] theorem setCluster_sb (s : State) (c : Nat) (k : Cluster) : (s.setCluster c k).sb = s.sb := rfl
@[simp] theorem setCluster_trBusy (s : State) (c : Nat) (k : Cluster) : (s.setCluster c k).trBusy = s.trBusy := rfl
@[simp] theorem setCluster_trWait (s : State) (c : Nat) (k : Cluster) : (s.setCluster c k).trWait = s.trWait := rfl
@[simp] theorem setCluster_ports (s : State) (c : Nat) (k : Cluster) : (s.setCluster c k).ports = s.ports := rfl
@[simp] theorem setCluster_remote (s : State) (c : Nat) (k : Cluster) : (s.setCluster c k).remote = s.remote := rfl
@[simp] theorem setCluster_sent (s : State) (c : Nat) (k : Cluster) : (s.setCluster c k).sent = s.sent := rfl
@[simp] theorem setCluster_tagRel (s : State) (c : Nat) (k : Cluster) : (s.setCluster c k).tagRel = s.tagRel := rfl
@[simp] theorem setCluster_images (s : State) (c : Nat) (k : Cluster) : (s.setCluster c k).images = s.images := rfl
@[simp] theorem setCluster_saves (s : State) (c : Nat) (k : Cluster) : (s.setCluster c k).saves = s.saves := rfl
@[simp] theorem setCluster_sys (s : State) (c : Nat) (k : Cluster) : (s.setCluster c k).sys = s.sys := rfl
@[simp] theorem setCluster_xfers (s : State) (c : Nat) (k : Cluster) : (s.setCluster c k).xfers = s.xfers := rfl
@[simp] theorem setCluster_retired (s : State) (c : Nat) (k : Cluster) : (s.setCluster c k).retired = s.retired := rfl
@[simp] theorem setCluster_away (s : State) (c : Nat) (k : Cluster) : (s.setCluster c k).away = s.away := rfl
@[simp] theorem setCluster_bar2 (s : State) (c : Nat) (k : Cluster) : (s.setCluster c k).bar2 = s.bar2 := rfl
@[simp] theorem setCluster_dones (s : State) (c : Nat) (k : Cluster) : (s.setCluster c k).dones = s.dones := rfl

/-! ### modCluster -/

@[simp] theorem modCluster_now (s : State) (c : Nat) (f : Cluster → Cluster) : (s.modCluster c f).now = s.now := rfl
@[simp] theorem modCluster_agenda (s : State) (c : Nat) (f : Cluster → Cluster) : (s.modCluster c f).agenda = s.agenda := rfl
@[simp] theorem modCluster_cur (s : State) (c : Nat) (f : Cluster → Cluster) : (s.modCluster c f).cur = s.cur := rfl
@[simp] theorem modCluster_inputs (s : State) (c : Nat) (f : Cluster → Cluster) : (s.modCluster c f).inputs = s.inputs := rfl
@[simp] theorem modCluster_evq (s : State) (c : Nat) (f : Cluster → Cluster) : (s.modCluster c f).evq = s.evq := rfl
@[simp] theorem modCluster_flights (s : State) (c : Nat) (f : Cluster → Cluster) : (s.modCluster c f).flights = s.flights := rfl
@[simp] theorem modCluster_nextId (s : State) (c : Nat) (f : Cluster → Cluster) : (s.modCluster c f).nextId = s.nextId := rfl
@[simp] theorem modCluster_free (s : State) (c : Nat) (f : Cluster → Cluster) : (s.modCluster c f).free = s.free := rfl
@[simp] theorem modCluster_mem (s : State) (c : Nat) (f : Cluster → Cluster) : (s.modCluster c f).mem = s.mem := rfl
@[simp] theorem modCluster_full (s : State) (c : Nat) (f : Cluster → Cluster) : (s.modCluster c f).full = s.full := rfl
@[simp] theorem modCluster_poison (s : State) (c : Nat) (f : Cluster → Cluster) : (s.modCluster c f).poison = s.poison := rfl
@[simp] theorem modCluster_shadow (s : State) (c : Nat) (f : Cluster → Cluster) : (s.modCluster c f).shadow = s.shadow := rfl
@[simp] theorem modCluster_arel (s : State) (c : Nat) (f : Cluster → Cluster) : (s.modCluster c f).arel = s.arel := rfl
@[simp] theorem modCluster_acc (s : State) (c : Nat) (f : Cluster → Cluster) : (s.modCluster c f).acc = s.acc := rfl
@[simp] theorem modCluster_accPoison (s : State) (c : Nat) (f : Cluster → Cluster) : (s.modCluster c f).accPoison = s.accPoison := rfl
@[simp] theorem modCluster_cores (s : State) (c : Nat) (f : Cluster → Cluster) : (s.modCluster c f).cores = s.cores := rfl
@[simp] theorem modCluster_ctxs (s : State) (c : Nat) (f : Cluster → Cluster) : (s.modCluster c f).ctxs = s.ctxs := rfl
@[simp] theorem modCluster_pools (s : State) (c : Nat) (f : Cluster → Cluster) : (s.modCluster c f).pools = s.pools := rfl
@[simp] theorem modCluster_dies (s : State) (c : Nat) (f : Cluster → Cluster) : (s.modCluster c f).dies = s.dies := rfl
@[simp] theorem modCluster_walks (s : State) (c : Nat) (f : Cluster → Cluster) : (s.modCluster c f).walks = s.walks := rfl
@[simp] theorem modCluster_sb (s : State) (c : Nat) (f : Cluster → Cluster) : (s.modCluster c f).sb = s.sb := rfl
@[simp] theorem modCluster_trBusy (s : State) (c : Nat) (f : Cluster → Cluster) : (s.modCluster c f).trBusy = s.trBusy := rfl
@[simp] theorem modCluster_trWait (s : State) (c : Nat) (f : Cluster → Cluster) : (s.modCluster c f).trWait = s.trWait := rfl
@[simp] theorem modCluster_ports (s : State) (c : Nat) (f : Cluster → Cluster) : (s.modCluster c f).ports = s.ports := rfl
@[simp] theorem modCluster_remote (s : State) (c : Nat) (f : Cluster → Cluster) : (s.modCluster c f).remote = s.remote := rfl
@[simp] theorem modCluster_sent (s : State) (c : Nat) (f : Cluster → Cluster) : (s.modCluster c f).sent = s.sent := rfl
@[simp] theorem modCluster_tagRel (s : State) (c : Nat) (f : Cluster → Cluster) : (s.modCluster c f).tagRel = s.tagRel := rfl
@[simp] theorem modCluster_images (s : State) (c : Nat) (f : Cluster → Cluster) : (s.modCluster c f).images = s.images := rfl
@[simp] theorem modCluster_saves (s : State) (c : Nat) (f : Cluster → Cluster) : (s.modCluster c f).saves = s.saves := rfl
@[simp] theorem modCluster_sys (s : State) (c : Nat) (f : Cluster → Cluster) : (s.modCluster c f).sys = s.sys := rfl
@[simp] theorem modCluster_xfers (s : State) (c : Nat) (f : Cluster → Cluster) : (s.modCluster c f).xfers = s.xfers := rfl
@[simp] theorem modCluster_retired (s : State) (c : Nat) (f : Cluster → Cluster) : (s.modCluster c f).retired = s.retired := rfl
@[simp] theorem modCluster_away (s : State) (c : Nat) (f : Cluster → Cluster) : (s.modCluster c f).away = s.away := rfl
@[simp] theorem modCluster_bar2 (s : State) (c : Nat) (f : Cluster → Cluster) : (s.modCluster c f).bar2 = s.bar2 := rfl
@[simp] theorem modCluster_dones (s : State) (c : Nat) (f : Cluster → Cluster) : (s.modCluster c f).dones = s.dones := rfl

/-! ### setCtx -/

@[simp] theorem setCtx_now (s : State) (c : Nat) (k : Ctx) : (s.setCtx c k).now = s.now := rfl
@[simp] theorem setCtx_agenda (s : State) (c : Nat) (k : Ctx) : (s.setCtx c k).agenda = s.agenda := rfl
@[simp] theorem setCtx_cur (s : State) (c : Nat) (k : Ctx) : (s.setCtx c k).cur = s.cur := rfl
@[simp] theorem setCtx_inputs (s : State) (c : Nat) (k : Ctx) : (s.setCtx c k).inputs = s.inputs := rfl
@[simp] theorem setCtx_evq (s : State) (c : Nat) (k : Ctx) : (s.setCtx c k).evq = s.evq := rfl
@[simp] theorem setCtx_flights (s : State) (c : Nat) (k : Ctx) : (s.setCtx c k).flights = s.flights := rfl
@[simp] theorem setCtx_nextId (s : State) (c : Nat) (k : Ctx) : (s.setCtx c k).nextId = s.nextId := rfl
@[simp] theorem setCtx_free (s : State) (c : Nat) (k : Ctx) : (s.setCtx c k).free = s.free := rfl
@[simp] theorem setCtx_mem (s : State) (c : Nat) (k : Ctx) : (s.setCtx c k).mem = s.mem := rfl
@[simp] theorem setCtx_full (s : State) (c : Nat) (k : Ctx) : (s.setCtx c k).full = s.full := rfl
@[simp] theorem setCtx_poison (s : State) (c : Nat) (k : Ctx) : (s.setCtx c k).poison = s.poison := rfl
@[simp] theorem setCtx_shadow (s : State) (c : Nat) (k : Ctx) : (s.setCtx c k).shadow = s.shadow := rfl
@[simp] theorem setCtx_arel (s : State) (c : Nat) (k : Ctx) : (s.setCtx c k).arel = s.arel := rfl
@[simp] theorem setCtx_acc (s : State) (c : Nat) (k : Ctx) : (s.setCtx c k).acc = s.acc := rfl
@[simp] theorem setCtx_accPoison (s : State) (c : Nat) (k : Ctx) : (s.setCtx c k).accPoison = s.accPoison := rfl
@[simp] theorem setCtx_cores (s : State) (c : Nat) (k : Ctx) : (s.setCtx c k).cores = s.cores := rfl
@[simp] theorem setCtx_clusters (s : State) (c : Nat) (k : Ctx) : (s.setCtx c k).clusters = s.clusters := rfl
@[simp] theorem setCtx_pools (s : State) (c : Nat) (k : Ctx) : (s.setCtx c k).pools = s.pools := rfl
@[simp] theorem setCtx_dies (s : State) (c : Nat) (k : Ctx) : (s.setCtx c k).dies = s.dies := rfl
@[simp] theorem setCtx_walks (s : State) (c : Nat) (k : Ctx) : (s.setCtx c k).walks = s.walks := rfl
@[simp] theorem setCtx_sb (s : State) (c : Nat) (k : Ctx) : (s.setCtx c k).sb = s.sb := rfl
@[simp] theorem setCtx_trBusy (s : State) (c : Nat) (k : Ctx) : (s.setCtx c k).trBusy = s.trBusy := rfl
@[simp] theorem setCtx_trWait (s : State) (c : Nat) (k : Ctx) : (s.setCtx c k).trWait = s.trWait := rfl
@[simp] theorem setCtx_ports (s : State) (c : Nat) (k : Ctx) : (s.setCtx c k).ports = s.ports := rfl
@[simp] theorem setCtx_remote (s : State) (c : Nat) (k : Ctx) : (s.setCtx c k).remote = s.remote := rfl
@[simp] theorem setCtx_sent (s : State) (c : Nat) (k : Ctx) : (s.setCtx c k).sent = s.sent := rfl
@[simp] theorem setCtx_tagRel (s : State) (c : Nat) (k : Ctx) : (s.setCtx c k).tagRel = s.tagRel := rfl
@[simp] theorem setCtx_images (s : State) (c : Nat) (k : Ctx) : (s.setCtx c k).images = s.images := rfl
@[simp] theorem setCtx_saves (s : State) (c : Nat) (k : Ctx) : (s.setCtx c k).saves = s.saves := rfl
@[simp] theorem setCtx_sys (s : State) (c : Nat) (k : Ctx) : (s.setCtx c k).sys = s.sys := rfl
@[simp] theorem setCtx_xfers (s : State) (c : Nat) (k : Ctx) : (s.setCtx c k).xfers = s.xfers := rfl
@[simp] theorem setCtx_retired (s : State) (c : Nat) (k : Ctx) : (s.setCtx c k).retired = s.retired := rfl
@[simp] theorem setCtx_away (s : State) (c : Nat) (k : Ctx) : (s.setCtx c k).away = s.away := rfl
@[simp] theorem setCtx_bar2 (s : State) (c : Nat) (k : Ctx) : (s.setCtx c k).bar2 = s.bar2 := rfl
@[simp] theorem setCtx_dones (s : State) (c : Nat) (k : Ctx) : (s.setCtx c k).dones = s.dones := rfl

/-! ### modCtx -/

@[simp] theorem modCtx_now (s : State) (c : Nat) (f : Ctx → Ctx) : (s.modCtx c f).now = s.now := rfl
@[simp] theorem modCtx_agenda (s : State) (c : Nat) (f : Ctx → Ctx) : (s.modCtx c f).agenda = s.agenda := rfl
@[simp] theorem modCtx_cur (s : State) (c : Nat) (f : Ctx → Ctx) : (s.modCtx c f).cur = s.cur := rfl
@[simp] theorem modCtx_inputs (s : State) (c : Nat) (f : Ctx → Ctx) : (s.modCtx c f).inputs = s.inputs := rfl
@[simp] theorem modCtx_evq (s : State) (c : Nat) (f : Ctx → Ctx) : (s.modCtx c f).evq = s.evq := rfl
@[simp] theorem modCtx_flights (s : State) (c : Nat) (f : Ctx → Ctx) : (s.modCtx c f).flights = s.flights := rfl
@[simp] theorem modCtx_nextId (s : State) (c : Nat) (f : Ctx → Ctx) : (s.modCtx c f).nextId = s.nextId := rfl
@[simp] theorem modCtx_free (s : State) (c : Nat) (f : Ctx → Ctx) : (s.modCtx c f).free = s.free := rfl
@[simp] theorem modCtx_mem (s : State) (c : Nat) (f : Ctx → Ctx) : (s.modCtx c f).mem = s.mem := rfl
@[simp] theorem modCtx_full (s : State) (c : Nat) (f : Ctx → Ctx) : (s.modCtx c f).full = s.full := rfl
@[simp] theorem modCtx_poison (s : State) (c : Nat) (f : Ctx → Ctx) : (s.modCtx c f).poison = s.poison := rfl
@[simp] theorem modCtx_shadow (s : State) (c : Nat) (f : Ctx → Ctx) : (s.modCtx c f).shadow = s.shadow := rfl
@[simp] theorem modCtx_arel (s : State) (c : Nat) (f : Ctx → Ctx) : (s.modCtx c f).arel = s.arel := rfl
@[simp] theorem modCtx_acc (s : State) (c : Nat) (f : Ctx → Ctx) : (s.modCtx c f).acc = s.acc := rfl
@[simp] theorem modCtx_accPoison (s : State) (c : Nat) (f : Ctx → Ctx) : (s.modCtx c f).accPoison = s.accPoison := rfl
@[simp] theorem modCtx_cores (s : State) (c : Nat) (f : Ctx → Ctx) : (s.modCtx c f).cores = s.cores := rfl
@[simp] theorem modCtx_clusters (s : State) (c : Nat) (f : Ctx → Ctx) : (s.modCtx c f).clusters = s.clusters := rfl
@[simp] theorem modCtx_pools (s : State) (c : Nat) (f : Ctx → Ctx) : (s.modCtx c f).pools = s.pools := rfl
@[simp] theorem modCtx_dies (s : State) (c : Nat) (f : Ctx → Ctx) : (s.modCtx c f).dies = s.dies := rfl
@[simp] theorem modCtx_walks (s : State) (c : Nat) (f : Ctx → Ctx) : (s.modCtx c f).walks = s.walks := rfl
@[simp] theorem modCtx_sb (s : State) (c : Nat) (f : Ctx → Ctx) : (s.modCtx c f).sb = s.sb := rfl
@[simp] theorem modCtx_trBusy (s : State) (c : Nat) (f : Ctx → Ctx) : (s.modCtx c f).trBusy = s.trBusy := rfl
@[simp] theorem modCtx_trWait (s : State) (c : Nat) (f : Ctx → Ctx) : (s.modCtx c f).trWait = s.trWait := rfl
@[simp] theorem modCtx_ports (s : State) (c : Nat) (f : Ctx → Ctx) : (s.modCtx c f).ports = s.ports := rfl
@[simp] theorem modCtx_remote (s : State) (c : Nat) (f : Ctx → Ctx) : (s.modCtx c f).remote = s.remote := rfl
@[simp] theorem modCtx_sent (s : State) (c : Nat) (f : Ctx → Ctx) : (s.modCtx c f).sent = s.sent := rfl
@[simp] theorem modCtx_tagRel (s : State) (c : Nat) (f : Ctx → Ctx) : (s.modCtx c f).tagRel = s.tagRel := rfl
@[simp] theorem modCtx_images (s : State) (c : Nat) (f : Ctx → Ctx) : (s.modCtx c f).images = s.images := rfl
@[simp] theorem modCtx_saves (s : State) (c : Nat) (f : Ctx → Ctx) : (s.modCtx c f).saves = s.saves := rfl
@[simp] theorem modCtx_sys (s : State) (c : Nat) (f : Ctx → Ctx) : (s.modCtx c f).sys = s.sys := rfl
@[simp] theorem modCtx_xfers (s : State) (c : Nat) (f : Ctx → Ctx) : (s.modCtx c f).xfers = s.xfers := rfl
@[simp] theorem modCtx_retired (s : State) (c : Nat) (f : Ctx → Ctx) : (s.modCtx c f).retired = s.retired := rfl
@[simp] theorem modCtx_away (s : State) (c : Nat) (f : Ctx → Ctx) : (s.modCtx c f).away = s.away := rfl
@[simp] theorem modCtx_bar2 (s : State) (c : Nat) (f : Ctx → Ctx) : (s.modCtx c f).bar2 = s.bar2 := rfl
@[simp] theorem modCtx_dones (s : State) (c : Nat) (f : Ctx → Ctx) : (s.modCtx c f).dones = s.dones := rfl

/-! ### setPool -/

@[simp] theorem setPool_now (s : State) (c : Nat) (k : Pool) : (s.setPool c k).now = s.now := rfl
@[simp] theorem setPool_agenda (s : State) (c : Nat) (k : Pool) : (s.setPool c k).agenda = s.agenda := rfl
@[simp] theorem setPool_cur (s : State) (c : Nat) (k : Pool) : (s.setPool c k).cur = s.cur := rfl
@[simp] theorem setPool_inputs (s : State) (c : Nat) (k : Pool) : (s.setPool c k).inputs = s.inputs := rfl
@[simp] theorem setPool_evq (s : State) (c : Nat) (k : Pool) : (s.setPool c k).evq = s.evq := rfl
@[simp] theorem setPool_flights (s : State) (c : Nat) (k : Pool) : (s.setPool c k).flights = s.flights := rfl
@[simp] theorem setPool_nextId (s : State) (c : Nat) (k : Pool) : (s.setPool c k).nextId = s.nextId := rfl
@[simp] theorem setPool_free (s : State) (c : Nat) (k : Pool) : (s.setPool c k).free = s.free := rfl
@[simp] theorem setPool_mem (s : State) (c : Nat) (k : Pool) : (s.setPool c k).mem = s.mem := rfl
@[simp] theorem setPool_full (s : State) (c : Nat) (k : Pool) : (s.setPool c k).full = s.full := rfl
@[simp] theorem setPool_poison (s : State) (c : Nat) (k : Pool) : (s.setPool c k).poison = s.poison := rfl
@[simp] theorem setPool_shadow (s : State) (c : Nat) (k : Pool) : (s.setPool c k).shadow = s.shadow := rfl
@[simp] theorem setPool_arel (s : State) (c : Nat) (k : Pool) : (s.setPool c k).arel = s.arel := rfl
@[simp] theorem setPool_acc (s : State) (c : Nat) (k : Pool) : (s.setPool c k).acc = s.acc := rfl
@[simp] theorem setPool_accPoison (s : State) (c : Nat) (k : Pool) : (s.setPool c k).accPoison = s.accPoison := rfl
@[simp] theorem setPool_cores (s : State) (c : Nat) (k : Pool) : (s.setPool c k).cores = s.cores := rfl
@[simp] theorem setPool_clusters (s : State) (c : Nat) (k : Pool) : (s.setPool c k).clusters = s.clusters := rfl
@[simp] theorem setPool_ctxs (s : State) (c : Nat) (k : Pool) : (s.setPool c k).ctxs = s.ctxs := rfl
@[simp] theorem setPool_dies (s : State) (c : Nat) (k : Pool) : (s.setPool c k).dies = s.dies := rfl
@[simp] theorem setPool_walks (s : State) (c : Nat) (k : Pool) : (s.setPool c k).walks = s.walks := rfl
@[simp] theorem setPool_sb (s : State) (c : Nat) (k : Pool) : (s.setPool c k).sb = s.sb := rfl
@[simp] theorem setPool_trBusy (s : State) (c : Nat) (k : Pool) : (s.setPool c k).trBusy = s.trBusy := rfl
@[simp] theorem setPool_trWait (s : State) (c : Nat) (k : Pool) : (s.setPool c k).trWait = s.trWait := rfl
@[simp] theorem setPool_ports (s : State) (c : Nat) (k : Pool) : (s.setPool c k).ports = s.ports := rfl
@[simp] theorem setPool_remote (s : State) (c : Nat) (k : Pool) : (s.setPool c k).remote = s.remote := rfl
@[simp] theorem setPool_sent (s : State) (c : Nat) (k : Pool) : (s.setPool c k).sent = s.sent := rfl
@[simp] theorem setPool_tagRel (s : State) (c : Nat) (k : Pool) : (s.setPool c k).tagRel = s.tagRel := rfl
@[simp] theorem setPool_images (s : State) (c : Nat) (k : Pool) : (s.setPool c k).images = s.images := rfl
@[simp] theorem setPool_saves (s : State) (c : Nat) (k : Pool) : (s.setPool c k).saves = s.saves := rfl
@[simp] theorem setPool_sys (s : State) (c : Nat) (k : Pool) : (s.setPool c k).sys = s.sys := rfl
@[simp] theorem setPool_xfers (s : State) (c : Nat) (k : Pool) : (s.setPool c k).xfers = s.xfers := rfl
@[simp] theorem setPool_retired (s : State) (c : Nat) (k : Pool) : (s.setPool c k).retired = s.retired := rfl
@[simp] theorem setPool_away (s : State) (c : Nat) (k : Pool) : (s.setPool c k).away = s.away := rfl
@[simp] theorem setPool_bar2 (s : State) (c : Nat) (k : Pool) : (s.setPool c k).bar2 = s.bar2 := rfl
@[simp] theorem setPool_dones (s : State) (c : Nat) (k : Pool) : (s.setPool c k).dones = s.dones := rfl

/-! ### modPool -/

@[simp] theorem modPool_now (s : State) (c : Nat) (f : Pool → Pool) : (s.modPool c f).now = s.now := rfl
@[simp] theorem modPool_agenda (s : State) (c : Nat) (f : Pool → Pool) : (s.modPool c f).agenda = s.agenda := rfl
@[simp] theorem modPool_cur (s : State) (c : Nat) (f : Pool → Pool) : (s.modPool c f).cur = s.cur := rfl
@[simp] theorem modPool_inputs (s : State) (c : Nat) (f : Pool → Pool) : (s.modPool c f).inputs = s.inputs := rfl
@[simp] theorem modPool_evq (s : State) (c : Nat) (f : Pool → Pool) : (s.modPool c f).evq = s.evq := rfl
@[simp] theorem modPool_flights (s : State) (c : Nat) (f : Pool → Pool) : (s.modPool c f).flights = s.flights := rfl
@[simp] theorem modPool_nextId (s : State) (c : Nat) (f : Pool → Pool) : (s.modPool c f).nextId = s.nextId := rfl
@[simp] theorem modPool_free (s : State) (c : Nat) (f : Pool → Pool) : (s.modPool c f).free = s.free := rfl
@[simp] theorem modPool_mem (s : State) (c : Nat) (f : Pool → Pool) : (s.modPool c f).mem = s.mem := rfl
@[simp] theorem modPool_full (s : State) (c : Nat) (f : Pool → Pool) : (s.modPool c f).full = s.full := rfl
@[simp] theorem modPool_poison (s : State) (c : Nat) (f : Pool → Pool) : (s.modPool c f).poison = s.poison := rfl
@[simp] theorem modPool_shadow (s : State) (c : Nat) (f : Pool → Pool) : (s.modPool c f).shadow = s.shadow := rfl
@[simp] theorem modPool_arel (s : State) (c : Nat) (f : Pool → Pool) : (s.modPool c f).arel = s.arel := rfl
@[simp] theorem modPool_acc (s : State) (c : Nat) (f : Pool → Pool) : (s.modPool c f).acc = s.acc := rfl
@[simp] theorem modPool_accPoison (s : State) (c : Nat) (f : Pool → Pool) : (s.modPool c f).accPoison = s.accPoison := rfl
@[simp] theorem modPool_cores (s : State) (c : Nat) (f : Pool → Pool) : (s.modPool c f).cores = s.cores := rfl
@[simp] theorem modPool_clusters (s : State) (c : Nat) (f : Pool → Pool) : (s.modPool c f).clusters = s.clusters := rfl
@[simp] theorem modPool_ctxs (s : State) (c : Nat) (f : Pool → Pool) : (s.modPool c f).ctxs = s.ctxs := rfl
@[simp] theorem modPool_dies (s : State) (c : Nat) (f : Pool → Pool) : (s.modPool c f).dies = s.dies := rfl
@[simp] theorem modPool_walks (s : State) (c : Nat) (f : Pool → Pool) : (s.modPool c f).walks = s.walks := rfl
@[simp] theorem modPool_sb (s : State) (c : Nat) (f : Pool → Pool) : (s.modPool c f).sb = s.sb := rfl
@[simp] theorem modPool_trBusy (s : State) (c : Nat) (f : Pool → Pool) : (s.modPool c f).trBusy = s.trBusy := rfl
@[simp] theorem modPool_trWait (s : State) (c : Nat) (f : Pool → Pool) : (s.modPool c f).trWait = s.trWait := rfl
@[simp] theorem modPool_ports (s : State) (c : Nat) (f : Pool → Pool) : (s.modPool c f).ports = s.ports := rfl
@[simp] theorem modPool_remote (s : State) (c : Nat) (f : Pool → Pool) : (s.modPool c f).remote = s.remote := rfl
@[simp] theorem modPool_sent (s : State) (c : Nat) (f : Pool → Pool) : (s.modPool c f).sent = s.sent := rfl
@[simp] theorem modPool_tagRel (s : State) (c : Nat) (f : Pool → Pool) : (s.modPool c f).tagRel = s.tagRel := rfl
@[simp] theorem modPool_images (s : State) (c : Nat) (f : Pool → Pool) : (s.modPool c f).images = s.images := rfl
@[simp] theorem modPool_saves (s : State) (c : Nat) (f : Pool → Pool) : (s.modPool c f).saves = s.saves := rfl
@[simp] theorem modPool_sys (s : State) (c : Nat) (f : Pool → Pool) : (s.modPool c f).sys = s.sys := rfl
@[simp] theorem modPool_xfers (s : State) (c : Nat) (f : Pool → Pool) : (s.modPool c f).xfers = s.xfers := rfl
@[simp] theorem modPool_retired (s : State) (c : Nat) (f : Pool → Pool) : (s.modPool c f).retired = s.retired := rfl
@[simp] theorem modPool_away (s : State) (c : Nat) (f : Pool → Pool) : (s.modPool c f).away = s.away := rfl
@[simp] theorem modPool_bar2 (s : State) (c : Nat) (f : Pool → Pool) : (s.modPool c f).bar2 = s.bar2 := rfl
@[simp] theorem modPool_dones (s : State) (c : Nat) (f : Pool → Pool) : (s.modPool c f).dones = s.dones := rfl

/-! ### setDie -/

@[simp] theorem setDie_now (s : State) (c : Nat) (k : Die) : (s.setDie c k).now = s.now := rfl
@[simp] theorem setDie_agenda (s : State) (c : Nat) (k : Die) : (s.setDie c k).agenda = s.agenda := rfl
@[simp] theorem setDie_cur (s : State) (c : Nat) (k : Die) : (s.setDie c k).cur = s.cur := rfl
@[simp] theorem setDie_inputs (s : State) (c : Nat) (k : Die) : (s.setDie c k).inputs = s.inputs := rfl
@[simp] theorem setDie_evq (s : State) (c : Nat) (k : Die) : (s.setDie c k).evq = s.evq := rfl
@[simp] theorem setDie_flights (s : State) (c : Nat) (k : Die) : (s.setDie c k).flights = s.flights := rfl
@[simp] theorem setDie_nextId (s : State) (c : Nat) (k : Die) : (s.setDie c k).nextId = s.nextId := rfl
@[simp] theorem setDie_free (s : State) (c : Nat) (k : Die) : (s.setDie c k).free = s.free := rfl
@[simp] theorem setDie_mem (s : State) (c : Nat) (k : Die) : (s.setDie c k).mem = s.mem := rfl
@[simp] theorem setDie_full (s : State) (c : Nat) (k : Die) : (s.setDie c k).full = s.full := rfl
@[simp] theorem setDie_poison (s : State) (c : Nat) (k : Die) : (s.setDie c k).poison = s.poison := rfl
@[simp] theorem setDie_shadow (s : State) (c : Nat) (k : Die) : (s.setDie c k).shadow = s.shadow := rfl
@[simp] theorem setDie_arel (s : State) (c : Nat) (k : Die) : (s.setDie c k).arel = s.arel := rfl
@[simp] theorem setDie_acc (s : State) (c : Nat) (k : Die) : (s.setDie c k).acc = s.acc := rfl
@[simp] theorem setDie_accPoison (s : State) (c : Nat) (k : Die) : (s.setDie c k).accPoison = s.accPoison := rfl
@[simp] theorem setDie_cores (s : State) (c : Nat) (k : Die) : (s.setDie c k).cores = s.cores := rfl
@[simp] theorem setDie_clusters (s : State) (c : Nat) (k : Die) : (s.setDie c k).clusters = s.clusters := rfl
@[simp] theorem setDie_ctxs (s : State) (c : Nat) (k : Die) : (s.setDie c k).ctxs = s.ctxs := rfl
@[simp] theorem setDie_pools (s : State) (c : Nat) (k : Die) : (s.setDie c k).pools = s.pools := rfl
@[simp] theorem setDie_walks (s : State) (c : Nat) (k : Die) : (s.setDie c k).walks = s.walks := rfl
@[simp] theorem setDie_sb (s : State) (c : Nat) (k : Die) : (s.setDie c k).sb = s.sb := rfl
@[simp] theorem setDie_trBusy (s : State) (c : Nat) (k : Die) : (s.setDie c k).trBusy = s.trBusy := rfl
@[simp] theorem setDie_trWait (s : State) (c : Nat) (k : Die) : (s.setDie c k).trWait = s.trWait := rfl
@[simp] theorem setDie_ports (s : State) (c : Nat) (k : Die) : (s.setDie c k).ports = s.ports := rfl
@[simp] theorem setDie_remote (s : State) (c : Nat) (k : Die) : (s.setDie c k).remote = s.remote := rfl
@[simp] theorem setDie_sent (s : State) (c : Nat) (k : Die) : (s.setDie c k).sent = s.sent := rfl
@[simp] theorem setDie_tagRel (s : State) (c : Nat) (k : Die) : (s.setDie c k).tagRel = s.tagRel := rfl
@[simp] theorem setDie_images (s : State) (c : Nat) (k : Die) : (s.setDie c k).images = s.images := rfl
@[simp] theorem setDie_saves (s : State) (c : Nat) (k : Die) : (s.setDie c k).saves = s.saves := rfl
@[simp] theorem setDie_sys (s : State) (c : Nat) (k : Die) : (s.setDie c k).sys = s.sys := rfl
@[simp] theorem setDie_xfers (s : State) (c : Nat) (k : Die) : (s.setDie c k).xfers = s.xfers := rfl
@[simp] theorem setDie_retired (s : State) (c : Nat) (k : Die) : (s.setDie c k).retired = s.retired := rfl
@[simp] theorem setDie_away (s : State) (c : Nat) (k : Die) : (s.setDie c k).away = s.away := rfl
@[simp] theorem setDie_bar2 (s : State) (c : Nat) (k : Die) : (s.setDie c k).bar2 = s.bar2 := rfl
@[simp] theorem setDie_dones (s : State) (c : Nat) (k : Die) : (s.setDie c k).dones = s.dones := rfl

/-! ### modDie -/

@[simp] theorem modDie_now (s : State) (c : Nat) (f : Die → Die) : (s.modDie c f).now = s.now := rfl
@[simp] theorem modDie_agenda (s : State) (c : Nat) (f : Die → Die) : (s.modDie c f).agenda = s.agenda := rfl
@[simp] theorem modDie_cur (s : State) (c : Nat) (f : Die → Die) : (s.modDie c f).cur = s.cur := rfl
@[simp] theorem modDie_inputs (s : State) (c : Nat) (f : Die → Die) : (s.modDie c f).inputs = s.inputs := rfl
@[simp] theorem modDie_evq (s : State) (c : Nat) (f : Die → Die) : (s.modDie c f).evq = s.evq := rfl
@[simp] theorem modDie_flights (s : State) (c : Nat) (f : Die → Die) : (s.modDie c f).flights = s.flights := rfl
@[simp] theorem modDie_nextId (s : State) (c : Nat) (f : Die → Die) : (s.modDie c f).nextId = s.nextId := rfl
@[simp] theorem modDie_free (s : State) (c : Nat) (f : Die → Die) : (s.modDie c f).free = s.free := rfl
@[simp] theorem modDie_mem (s : State) (c : Nat) (f : Die → Die) : (s.modDie c f).mem = s.mem := rfl
@[simp] theorem modDie_full (s : State) (c : Nat) (f : Die → Die) : (s.modDie c f).full = s.full := rfl
@[simp] theorem modDie_poison (s : State) (c : Nat) (f : Die → Die) : (s.modDie c f).poison = s.poison := rfl
@[simp] theorem modDie_shadow (s : State) (c : Nat) (f : Die → Die) : (s.modDie c f).shadow = s.shadow := rfl
@[simp] theorem modDie_arel (s : State) (c : Nat) (f : Die → Die) : (s.modDie c f).arel = s.arel := rfl
@[simp] theorem modDie_acc (s : State) (c : Nat) (f : Die → Die) : (s.modDie c f).acc = s.acc := rfl
@[simp] theorem modDie_accPoison (s : State) (c : Nat) (f : Die → Die) : (s.modDie c f).accPoison = s.accPoison := rfl
@[simp] theorem modDie_cores (s : State) (c : Nat) (f : Die → Die) : (s.modDie c f).cores = s.cores := rfl
@[simp] theorem modDie_clusters (s : State) (c : Nat) (f : Die → Die) : (s.modDie c f).clusters = s.clusters := rfl
@[simp] theorem modDie_ctxs (s : State) (c : Nat) (f : Die → Die) : (s.modDie c f).ctxs = s.ctxs := rfl
@[simp] theorem modDie_pools (s : State) (c : Nat) (f : Die → Die) : (s.modDie c f).pools = s.pools := rfl
@[simp] theorem modDie_walks (s : State) (c : Nat) (f : Die → Die) : (s.modDie c f).walks = s.walks := rfl
@[simp] theorem modDie_sb (s : State) (c : Nat) (f : Die → Die) : (s.modDie c f).sb = s.sb := rfl
@[simp] theorem modDie_trBusy (s : State) (c : Nat) (f : Die → Die) : (s.modDie c f).trBusy = s.trBusy := rfl
@[simp] theorem modDie_trWait (s : State) (c : Nat) (f : Die → Die) : (s.modDie c f).trWait = s.trWait := rfl
@[simp] theorem modDie_ports (s : State) (c : Nat) (f : Die → Die) : (s.modDie c f).ports = s.ports := rfl
@[simp] theorem modDie_remote (s : State) (c : Nat) (f : Die → Die) : (s.modDie c f).remote = s.remote := rfl
@[simp] theorem modDie_sent (s : State) (c : Nat) (f : Die → Die) : (s.modDie c f).sent = s.sent := rfl
@[simp] theorem modDie_tagRel (s : State) (c : Nat) (f : Die → Die) : (s.modDie c f).tagRel = s.tagRel := rfl
@[simp] theorem modDie_images (s : State) (c : Nat) (f : Die → Die) : (s.modDie c f).images = s.images := rfl
@[simp] theorem modDie_saves (s : State) (c : Nat) (f : Die → Die) : (s.modDie c f).saves = s.saves := rfl
@[simp] theorem modDie_sys (s : State) (c : Nat) (f : Die → Die) : (s.modDie c f).sys = s.sys := rfl
@[simp] theorem modDie_xfers (s : State) (c : Nat) (f : Die → Die) : (s.modDie c f).xfers = s.xfers := rfl
@[simp] theorem modDie_retired (s : State) (c : Nat) (f : Die → Die) : (s.modDie c f).retired = s.retired := rfl
@[simp] theorem modDie_away (s : State) (c : Nat) (f : Die → Die) : (s.modDie c f).away = s.away := rfl
@[simp] theorem modDie_bar2 (s : State) (c : Nat) (f : Die → Die) : (s.modDie c f).bar2 = s.bar2 := rfl
@[simp] theorem modDie_dones (s : State) (c : Nat) (f : Die → Die) : (s.modDie c f).dones = s.dones := rfl

/-! ### Reading a part after a part is written -/

theorem setCore_core (s : State) (c : Nat) (k : Core) (j : Nat) : (s.setCore c k).core j = if j = c then k else s.core j := by
  simp only [State.setCore, State.core, mapGet_mapSet]
@[simp] theorem setCore_core_self (s : State) (c : Nat) (k : Core) : (s.setCore c k).core c = k := by simp [setCore_core]
@[simp] theorem setCore_cluster (s : State) (c : Nat) (k : Core) (j : Nat) : (s.setCore c k).cluster j = s.cluster j := rfl
@[simp] theorem setCore_ctx (s : State) (c : Nat) (k : Core) (j : Nat) : (s.setCore c k).ctx j = s.ctx j := rfl
@[simp] theorem setCore_pool (s : State) (c : Nat) (k : Core) (j : Nat) : (s.setCore c k).pool j = s.pool j := rfl
@[simp] theorem setCore_die (s : State) (c : Nat) (k : Core) (j : Nat) : (s.setCore c k).die j = s.die j := rfl
theorem modCore_core (s : State) (c : Nat) (f : Core → Core) (j : Nat) : (s.modCore c f).core j = if j = c then f (s.core c) else s.core j := by
  simp only [State.modCore, setCore_core]
@[simp] theorem modCore_core_self (s : State) (c : Nat) (f : Core → Core) : (s.modCore c f).core c = f (s.core c) := by simp [modCore_core]
@[simp] theorem modCore_cluster (s : State) (c : Nat) (f : Core → Core) (j : Nat) : (s.modCore c f).cluster j = s.cluster j := rfl
@[simp] theorem modCore_ctx (s : State) (c : Nat) (f : Core → Core) (j : Nat) : (s.modCore c f).ctx j = s.ctx j := rfl
@[simp] theorem modCore_pool (s : State) (c : Nat) (f : Core → Core) (j : Nat) : (s.modCore c f).pool j = s.pool j := rfl
@[simp] theorem modCore_die (s : State) (c : Nat) (f : Core → Core) (j : Nat) : (s.modCore c f).die j = s.die j := rfl
@[simp] theorem setCluster_core (s : State) (c : Nat) (k : Cluster) (j : Nat) : (s.setCluster c k).core j = s.core j := rfl
theorem setCluster_cluster (s : State) (c : Nat) (k : Cluster) (j : Nat) : (s.setCluster c k).cluster j = if j = c then k else s.cluster j := by
  simp only [State.setCluster, State.cluster, mapGet_mapSet]
@[simp] theorem setCluster_cluster_self (s : State) (c : Nat) (k : Cluster) : (s.setCluster c k).cluster c = k := by simp [setCluster_cluster]
@[simp] theorem setCluster_ctx (s : State) (c : Nat) (k : Cluster) (j : Nat) : (s.setCluster c k).ctx j = s.ctx j := rfl
@[simp] theorem setCluster_pool (s : State) (c : Nat) (k : Cluster) (j : Nat) : (s.setCluster c k).pool j = s.pool j := rfl
@[simp] theorem setCluster_die (s : State) (c : Nat) (k : Cluster) (j : Nat) : (s.setCluster c k).die j = s.die j := rfl
@[simp] theorem modCluster_core (s : State) (c : Nat) (f : Cluster → Cluster) (j : Nat) : (s.modCluster c f).core j = s.core j := rfl
theorem modCluster_cluster (s : State) (c : Nat) (f : Cluster → Cluster) (j : Nat) : (s.modCluster c f).cluster j = if j = c then f (s.cluster c) else s.cluster j := by
  simp only [State.modCluster, setCluster_cluster]
@[simp] theorem modCluster_cluster_self (s : State) (c : Nat) (f : Cluster → Cluster) : (s.modCluster c f).cluster c = f (s.cluster c) := by simp [modCluster_cluster]
@[simp] theorem modCluster_ctx (s : State) (c : Nat) (f : Cluster → Cluster) (j : Nat) : (s.modCluster c f).ctx j = s.ctx j := rfl
@[simp] theorem modCluster_pool (s : State) (c : Nat) (f : Cluster → Cluster) (j : Nat) : (s.modCluster c f).pool j = s.pool j := rfl
@[simp] theorem modCluster_die (s : State) (c : Nat) (f : Cluster → Cluster) (j : Nat) : (s.modCluster c f).die j = s.die j := rfl
@[simp] theorem setCtx_core (s : State) (c : Nat) (k : Ctx) (j : Nat) : (s.setCtx c k).core j = s.core j := rfl
@[simp] theorem setCtx_cluster (s : State) (c : Nat) (k : Ctx) (j : Nat) : (s.setCtx c k).cluster j = s.cluster j := rfl
theorem setCtx_ctx (s : State) (c : Nat) (k : Ctx) (j : Nat) : (s.setCtx c k).ctx j = if j = c then k else s.ctx j := by
  simp only [State.setCtx, State.ctx, mapGet_mapSet]
@[simp] theorem setCtx_ctx_self (s : State) (c : Nat) (k : Ctx) : (s.setCtx c k).ctx c = k := by simp [setCtx_ctx]
@[simp] theorem setCtx_pool (s : State) (c : Nat) (k : Ctx) (j : Nat) : (s.setCtx c k).pool j = s.pool j := rfl
@[simp] theorem setCtx_die (s : State) (c : Nat) (k : Ctx) (j : Nat) : (s.setCtx c k).die j = s.die j := rfl
@[simp] theorem modCtx_core (s : State) (c : Nat) (f : Ctx → Ctx) (j : Nat) : (s.modCtx c f).core j = s.core j := rfl
@[simp] theorem modCtx_cluster (s : State) (c : Nat) (f : Ctx → Ctx) (j : Nat) : (s.modCtx c f).cluster j = s.cluster j := rfl
theorem modCtx_ctx (s : State) (c : Nat) (f : Ctx → Ctx) (j : Nat) : (s.modCtx c f).ctx j = if j = c then f (s.ctx c) else s.ctx j := by
  simp only [State.modCtx, setCtx_ctx]
@[simp] theorem modCtx_ctx_self (s : State) (c : Nat) (f : Ctx → Ctx) : (s.modCtx c f).ctx c = f (s.ctx c) := by simp [modCtx_ctx]
@[simp] theorem modCtx_pool (s : State) (c : Nat) (f : Ctx → Ctx) (j : Nat) : (s.modCtx c f).pool j = s.pool j := rfl
@[simp] theorem modCtx_die (s : State) (c : Nat) (f : Ctx → Ctx) (j : Nat) : (s.modCtx c f).die j = s.die j := rfl
@[simp] theorem setPool_core (s : State) (c : Nat) (k : Pool) (j : Nat) : (s.setPool c k).core j = s.core j := rfl
@[simp] theorem setPool_cluster (s : State) (c : Nat) (k : Pool) (j : Nat) : (s.setPool c k).cluster j = s.cluster j := rfl
@[simp] theorem setPool_ctx (s : State) (c : Nat) (k : Pool) (j : Nat) : (s.setPool c k).ctx j = s.ctx j := rfl
theorem setPool_pool (s : State) (c : Nat) (k : Pool) (j : Nat) : (s.setPool c k).pool j = if j = c then k else s.pool j := by
  simp only [State.setPool, State.pool, mapGet_mapSet]
@[simp] theorem setPool_pool_self (s : State) (c : Nat) (k : Pool) : (s.setPool c k).pool c = k := by simp [setPool_pool]
@[simp] theorem setPool_die (s : State) (c : Nat) (k : Pool) (j : Nat) : (s.setPool c k).die j = s.die j := rfl
@[simp] theorem modPool_core (s : State) (c : Nat) (f : Pool → Pool) (j : Nat) : (s.modPool c f).core j = s.core j := rfl
@[simp] theorem modPool_cluster (s : State) (c : Nat) (f : Pool → Pool) (j : Nat) : (s.modPool c f).cluster j = s.cluster j := rfl
@[simp] theorem modPool_ctx (s : State) (c : Nat) (f : Pool → Pool) (j : Nat) : (s.modPool c f).ctx j = s.ctx j := rfl
theorem modPool_pool (s : State) (c : Nat) (f : Pool → Pool) (j : Nat) : (s.modPool c f).pool j = if j = c then f (s.pool c) else s.pool j := by
  simp only [State.modPool, setPool_pool]
@[simp] theorem modPool_pool_self (s : State) (c : Nat) (f : Pool → Pool) : (s.modPool c f).pool c = f (s.pool c) := by simp [modPool_pool]
@[simp] theorem modPool_die (s : State) (c : Nat) (f : Pool → Pool) (j : Nat) : (s.modPool c f).die j = s.die j := rfl
@[simp] theorem setDie_core (s : State) (c : Nat) (k : Die) (j : Nat) : (s.setDie c k).core j = s.core j := rfl
@[simp] theorem setDie_cluster (s : State) (c : Nat) (k : Die) (j : Nat) : (s.setDie c k).cluster j = s.cluster j := rfl
@[simp] theorem setDie_ctx (s : State) (c : Nat) (k : Die) (j : Nat) : (s.setDie c k).ctx j = s.ctx j := rfl
@[simp] theorem setDie_pool (s : State) (c : Nat) (k : Die) (j : Nat) : (s.setDie c k).pool j = s.pool j := rfl
theorem setDie_die (s : State) (c : Nat) (k : Die) (j : Nat) : (s.setDie c k).die j = if j = c then k else s.die j := by
  simp only [State.setDie, State.die, mapGet_mapSet]
@[simp] theorem setDie_die_self (s : State) (c : Nat) (k : Die) : (s.setDie c k).die c = k := by simp [setDie_die]
@[simp] theorem modDie_core (s : State) (c : Nat) (f : Die → Die) (j : Nat) : (s.modDie c f).core j = s.core j := rfl
@[simp] theorem modDie_cluster (s : State) (c : Nat) (f : Die → Die) (j : Nat) : (s.modDie c f).cluster j = s.cluster j := rfl
@[simp] theorem modDie_ctx (s : State) (c : Nat) (f : Die → Die) (j : Nat) : (s.modDie c f).ctx j = s.ctx j := rfl
@[simp] theorem modDie_pool (s : State) (c : Nat) (f : Die → Die) (j : Nat) : (s.modDie c f).pool j = s.pool j := rfl
theorem modDie_die (s : State) (c : Nat) (f : Die → Die) (j : Nat) : (s.modDie c f).die j = if j = c then f (s.die c) else s.die j := by
  simp only [State.modDie, setDie_die]
@[simp] theorem modDie_die_self (s : State) (c : Nat) (f : Die → Die) : (s.modDie c f).die c = f (s.die c) := by simp [modDie_die]

/-! ### Updates of one core compose -/

@[simp] theorem setCore_setCore (s : State) (c : Nat) (k l : Core) : (s.setCore c k).setCore c l = s.setCore c l := by
  simp [State.setCore]
@[simp] theorem modCore_modCore (s : State) (c : Nat) (f g : Core → Core) : (s.modCore c f).modCore c g = s.modCore c fun k => g (f k) := by
  simp [State.modCore]
theorem modCore_eq_setCore (s : State) (c : Nat) (f : Core → Core) : s.modCore c f = s.setCore c (f (s.core c)) := rfl
@[simp] theorem setCluster_setCluster (s : State) (c : Nat) (k l : Cluster) : (s.setCluster c k).setCluster c l = s.setCluster c l := by
  simp [State.setCluster]

/-! ### The parts of a core -/

theorem modS_eq (s : State) (c : Nat) (f : SUnit → SUnit) : s.modS c f = s.modCore c fun k => { k with su := f k.su } := rfl
theorem modV_eq (s : State) (c : Nat) (f : VUnit → VUnit) : s.modV c f = s.modCore c fun k => { k with v := f k.v } := rfl
theorem modM_eq (s : State) (c : Nat) (f : MUnit → MUnit) : s.modM c f = s.modCore c fun k => { k with m := f k.m } := rfl
theorem modQ_eq (s : State) (c : Nat) (f : Queues → Queues) : s.modQ c f = s.modCore c fun k => { k with q := f k.q } := rfl
theorem modPr_eq (s : State) (c : Nat) (f : PrismCore → PrismCore) : s.modPr c f = s.modCore c fun k => { k with pr := f k.pr } := rfl
theorem modMir_eq (s : State) (c : Nat) (f : Mirror → Mirror) : s.modMir c f = s.modCore c fun k => { k with mir := f k.mir } := rfl
theorem modWd_eq (s : State) (c : Nat) (f : Watch → Watch) : s.modWd c f = s.modCore c fun k => { k with wd := f k.wd } := rfl
theorem modEng_eq (s : State) (c e : Nat) (f : Eng → Eng) : s.modEng c e f = s.modCore c fun k => k.modEng e f := rfl
theorem modMe_eq (s : State) (f : Core → Core) : s.modMe f = s.modCore s.cur.1 f := rfl
theorem me_eq (s : State) : s.me = s.core s.cur.1 := rfl

theorem modEng_engine (k : Core) (e j : Nat) (f : Eng → Eng) : (k.modEng e f).engine j = if j = e then f (k.engine e) else k.engine j := by
  simp only [Core.engine, Core.modEng, mapGet_mapMod]
@[simp] theorem modEng_engine_self (k : Core) (e : Nat) (f : Eng → Eng) : (k.modEng e f).engine e = f (k.engine e) := by simp [modEng_engine]

@[simp] theorem modEng_mir (k : Core) (e : Nat) (f : Eng → Eng) : (k.modEng e f).mir = k.mir := rfl
@[simp] theorem modEng_ctx (k : Core) (e : Nat) (f : Eng → Eng) : (k.modEng e f).ctx = k.ctx := rfl
@[simp] theorem modEng_kern (k : Core) (e : Nat) (f : Eng → Eng) : (k.modEng e f).kern = k.kern := rfl
@[simp] theorem modEng_stage (k : Core) (e : Nat) (f : Eng → Eng) : (k.modEng e f).stage = k.stage := rfl
@[simp] theorem modEng_lclus (k : Core) (e : Nat) (f : Eng → Eng) : (k.modEng e f).lclus = k.lclus := rfl
@[simp] theorem modEng_lcount (k : Core) (e : Nat) (f : Eng → Eng) : (k.modEng e f).lcount = k.lcount := rfl
@[simp] theorem modEng_cur (k : Core) (e : Nat) (f : Eng → Eng) : (k.modEng e f).cur = k.cur := rfl
@[simp] theorem modEng_cy (k : Core) (e : Nat) (f : Eng → Eng) : (k.modEng e f).cy = k.cy := rfl
@[simp] theorem modEng_su (k : Core) (e : Nat) (f : Eng → Eng) : (k.modEng e f).su = k.su := rfl
@[simp] theorem modEng_pr (k : Core) (e : Nat) (f : Eng → Eng) : (k.modEng e f).pr = k.pr := rfl
@[simp] theorem modEng_q (k : Core) (e : Nat) (f : Eng → Eng) : (k.modEng e f).q = k.q := rfl
@[simp] theorem modEng_v (k : Core) (e : Nat) (f : Eng → Eng) : (k.modEng e f).v = k.v := rfl
@[simp] theorem modEng_run (k : Core) (e : Nat) (f : Eng → Eng) : (k.modEng e f).run = k.run := rfl
@[simp] theorem modEng_xt (k : Core) (e : Nat) (f : Eng → Eng) : (k.modEng e f).xt = k.xt := rfl
@[simp] theorem modEng_m (k : Core) (e : Nat) (f : Eng → Eng) : (k.modEng e f).m = k.m := rfl
@[simp] theorem modEng_rm (k : Core) (e : Nat) (f : Eng → Eng) : (k.modEng e f).rm = k.rm := rfl
@[simp] theorem modEng_race (k : Core) (e : Nat) (f : Eng → Eng) : (k.modEng e f).race = k.race := rfl
@[simp] theorem modEng_wd (k : Core) (e : Nat) (f : Eng → Eng) : (k.modEng e f).wd = k.wd := rfl
@[simp] theorem modEng_rint (k : Core) (e : Nat) (f : Eng → Eng) : (k.modEng e f).rint = k.rint := rfl
@[simp] theorem modEng_copies (k : Core) (e : Nat) (f : Eng → Eng) : (k.modEng e f).copies = k.copies := rfl
@[simp] theorem modEng_launched (k : Core) (e : Nat) (f : Eng → Eng) : (k.modEng e f).launched = k.launched := rfl
@[simp] theorem modEng_firstCause (k : Core) (e : Nat) (f : Eng → Eng) : (k.modEng e f).firstCause = k.firstCause := rfl
@[simp] theorem modEng_prog (k : Core) (e : Nat) (f : Eng → Eng) : (k.modEng e f).prog = k.prog := rfl

/-! ### Scalar registers and predicates (R172) -/

@[simp] theorem reg_zero (u : SUnit) : u.reg 0 = 0 := rfl
@[simp] theorem pred_zero (u : SUnit) : u.pred 0 = true := rfl
/-- A register after a write: s0 discards it. -/
theorem reg_setReg (u : SUnit) (r j : Nat) (v : W64) : (u.setReg r v).reg j = if j = r ∧ r ≠ 0 then v else u.reg j := by
  unfold SUnit.setReg SUnit.reg
  by_cases h : r = 0 <;> by_cases h2 : j = 0 <;> by_cases h3 : j = r <;> simp_all [mapGet_mapPut]
/-- A predicate after a write: p0 discards it. -/
theorem pred_setPred (u : SUnit) (n j : Nat) (v : Bool) (hn : n < 8) (hj : j < 8) : (u.setPred n v).pred j = if j = n ∧ n ≠ 0 then v else u.pred j := by
  unfold SUnit.setPred SUnit.pred
  by_cases h : n = 0 <;> by_cases h2 : j = 0 <;> by_cases h3 : j = n <;> cases v <;> simp_all <;> omega

@[simp] theorem setReg_p (u : SUnit) (r : Nat) (v : W64) : (u.setReg r v).p = u.p := by unfold SUnit.setReg; split <;> rfl
@[simp] theorem setReg_pc (u : SUnit) (r : Nat) (v : W64) : (u.setReg r v).pc = u.pc := by unfold SUnit.setReg; split <;> rfl
@[simp] theorem setReg_ras (u : SUnit) (r : Nat) (v : W64) : (u.setReg r v).ras = u.ras := by unfold SUnit.setReg; split <;> rfl
@[simp] theorem setReg_rspill (u : SUnit) (r : Nat) (v : W64) : (u.setReg r v).rspill = u.rspill := by unfold SUnit.setReg; split <;> rfl
@[simp] theorem setReg_epc (u : SUnit) (r : Nat) (v : W64) : (u.setReg r v).epc = u.epc := by unfold SUnit.setReg; split <;> rfl
@[simp] theorem setReg_cause (u : SUnit) (r : Nat) (v : W64) : (u.setReg r v).cause = u.cause := by unfold SUnit.setReg; split <;> rfl
@[simp] theorem setReg_inh (u : SUnit) (r : Nat) (v : W64) : (u.setReg r v).inh = u.inh := by unfold SUnit.setReg; split <;> rfl
@[simp] theorem setReg_ready (u : SUnit) (r : Nat) (v : W64) : (u.setReg r v).ready = u.ready := by unfold SUnit.setReg; split <;> rfl
@[simp] theorem setReg_next (u : SUnit) (r : Nat) (v : W64) : (u.setReg r v).next = u.next := by unfold SUnit.setReg; split <;> rfl
@[simp] theorem setReg_performed (u : SUnit) (r : Nat) (v : W64) : (u.setReg r v).performed = u.performed := by unfold SUnit.setReg; split <;> rfl
@[simp] theorem setReg_wait (u : SUnit) (r : Nat) (v : W64) : (u.setReg r v).wait = u.wait := by unfold SUnit.setReg; split <;> rfl
@[simp] theorem setReg_pend (u : SUnit) (r : Nat) (v : W64) : (u.setReg r v).pend = u.pend := by unfold SUnit.setReg; split <;> rfl
@[simp] theorem setReg_spin (u : SUnit) (r : Nat) (v : W64) : (u.setReg r v).spin = u.spin := by unfold SUnit.setReg; split <;> rfl
@[simp] theorem setReg_triggered (u : SUnit) (r : Nat) (v : W64) : (u.setReg r v).triggered = u.triggered := by unfold SUnit.setReg; split <;> rfl
@[simp] theorem setReg_steps (u : SUnit) (r : Nat) (v : W64) : (u.setReg r v).steps = u.steps := by unfold SUnit.setReg; split <;> rfl
@[simp] theorem setReg_word (u : SUnit) (r : Nat) (v : W64) : (u.setReg r v).word = u.word := by unfold SUnit.setReg; split <;> rfl
@[simp] theorem setReg_far (u : SUnit) (r : Nat) (v : W64) : (u.setReg r v).far = u.far := by unfold SUnit.setReg; split <;> rfl
@[simp] theorem setReg_farNext (u : SUnit) (r : Nat) (v : W64) : (u.setReg r v).farNext = u.farNext := by unfold SUnit.setReg; split <;> rfl
@[simp] theorem setReg_farDone (u : SUnit) (r : Nat) (v : W64) : (u.setReg r v).farDone = u.farDone := by unfold SUnit.setReg; split <;> rfl
@[simp] theorem setReg_bm (u : SUnit) (r : Nat) (v : W64) : (u.setReg r v).bm = u.bm := by unfold SUnit.setReg; split <;> rfl
@[simp] theorem setReg_dwaited (u : SUnit) (r : Nat) (v : W64) : (u.setReg r v).dwaited = u.dwaited := by unfold SUnit.setReg; split <;> rfl
@[simp] theorem setPred_x (u : SUnit) (n : Nat) (v : Bool) : (u.setPred n v).x = u.x := by unfold SUnit.setPred; split <;> rfl
@[simp] theorem setPred_pc (u : SUnit) (n : Nat) (v : Bool) : (u.setPred n v).pc = u.pc := by unfold SUnit.setPred; split <;> rfl
@[simp] theorem setPred_ras (u : SUnit) (n : Nat) (v : Bool) : (u.setPred n v).ras = u.ras := by unfold SUnit.setPred; split <;> rfl
@[simp] theorem setPred_rspill (u : SUnit) (n : Nat) (v : Bool) : (u.setPred n v).rspill = u.rspill := by unfold SUnit.setPred; split <;> rfl
@[simp] theorem setPred_epc (u : SUnit) (n : Nat) (v : Bool) : (u.setPred n v).epc = u.epc := by unfold SUnit.setPred; split <;> rfl
@[simp] theorem setPred_cause (u : SUnit) (n : Nat) (v : Bool) : (u.setPred n v).cause = u.cause := by unfold SUnit.setPred; split <;> rfl
@[simp] theorem setPred_inh (u : SUnit) (n : Nat) (v : Bool) : (u.setPred n v).inh = u.inh := by unfold SUnit.setPred; split <;> rfl
@[simp] theorem setPred_ready (u : SUnit) (n : Nat) (v : Bool) : (u.setPred n v).ready = u.ready := by unfold SUnit.setPred; split <;> rfl
@[simp] theorem setPred_next (u : SUnit) (n : Nat) (v : Bool) : (u.setPred n v).next = u.next := by unfold SUnit.setPred; split <;> rfl
@[simp] theorem setPred_performed (u : SUnit) (n : Nat) (v : Bool) : (u.setPred n v).performed = u.performed := by unfold SUnit.setPred; split <;> rfl
@[simp] theorem setPred_wait (u : SUnit) (n : Nat) (v : Bool) : (u.setPred n v).wait = u.wait := by unfold SUnit.setPred; split <;> rfl
@[simp] theorem setPred_pend (u : SUnit) (n : Nat) (v : Bool) : (u.setPred n v).pend = u.pend := by unfold SUnit.setPred; split <;> rfl
@[simp] theorem setPred_spin (u : SUnit) (n : Nat) (v : Bool) : (u.setPred n v).spin = u.spin := by unfold SUnit.setPred; split <;> rfl
@[simp] theorem setPred_triggered (u : SUnit) (n : Nat) (v : Bool) : (u.setPred n v).triggered = u.triggered := by unfold SUnit.setPred; split <;> rfl
@[simp] theorem setPred_steps (u : SUnit) (n : Nat) (v : Bool) : (u.setPred n v).steps = u.steps := by unfold SUnit.setPred; split <;> rfl
@[simp] theorem setPred_word (u : SUnit) (n : Nat) (v : Bool) : (u.setPred n v).word = u.word := by unfold SUnit.setPred; split <;> rfl
@[simp] theorem setPred_far (u : SUnit) (n : Nat) (v : Bool) : (u.setPred n v).far = u.far := by unfold SUnit.setPred; split <;> rfl
@[simp] theorem setPred_farNext (u : SUnit) (n : Nat) (v : Bool) : (u.setPred n v).farNext = u.farNext := by unfold SUnit.setPred; split <;> rfl
@[simp] theorem setPred_farDone (u : SUnit) (n : Nat) (v : Bool) : (u.setPred n v).farDone = u.farDone := by unfold SUnit.setPred; split <;> rfl
@[simp] theorem setPred_bm (u : SUnit) (n : Nat) (v : Bool) : (u.setPred n v).bm = u.bm := by unfold SUnit.setPred; split <;> rfl
@[simp] theorem setPred_dwaited (u : SUnit) (n : Nat) (v : Bool) : (u.setPred n v).dwaited = u.dwaited := by unfold SUnit.setPred; split <;> rfl
@[simp] theorem result_p (u : SUnit) (cy r : Nat) (v : W64) (lat : Nat) : (u.result cy r v lat).p = u.p := by unfold SUnit.result; split <;> first | rfl | simp
@[simp] theorem result_pc (u : SUnit) (cy r : Nat) (v : W64) (lat : Nat) : (u.result cy r v lat).pc = u.pc := by unfold SUnit.result; split <;> first | rfl | simp
@[simp] theorem result_ras (u : SUnit) (cy r : Nat) (v : W64) (lat : Nat) : (u.result cy r v lat).ras = u.ras := by unfold SUnit.result; split <;> first | rfl | simp
@[simp] theorem result_rspill (u : SUnit) (cy r : Nat) (v : W64) (lat : Nat) : (u.result cy r v lat).rspill = u.rspill := by unfold SUnit.result; split <;> first | rfl | simp
@[simp] theorem result_epc (u : SUnit) (cy r : Nat) (v : W64) (lat : Nat) : (u.result cy r v lat).epc = u.epc := by unfold SUnit.result; split <;> first | rfl | simp
@[simp] theorem result_cause (u : SUnit) (cy r : Nat) (v : W64) (lat : Nat) : (u.result cy r v lat).cause = u.cause := by unfold SUnit.result; split <;> first | rfl | simp
@[simp] theorem result_inh (u : SUnit) (cy r : Nat) (v : W64) (lat : Nat) : (u.result cy r v lat).inh = u.inh := by unfold SUnit.result; split <;> first | rfl | simp
@[simp] theorem result_next (u : SUnit) (cy r : Nat) (v : W64) (lat : Nat) : (u.result cy r v lat).next = u.next := by unfold SUnit.result; split <;> first | rfl | simp
@[simp] theorem result_performed (u : SUnit) (cy r : Nat) (v : W64) (lat : Nat) : (u.result cy r v lat).performed = u.performed := by unfold SUnit.result; split <;> first | rfl | simp
@[simp] theorem result_wait (u : SUnit) (cy r : Nat) (v : W64) (lat : Nat) : (u.result cy r v lat).wait = u.wait := by unfold SUnit.result; split <;> first | rfl | simp
@[simp] theorem result_pend (u : SUnit) (cy r : Nat) (v : W64) (lat : Nat) : (u.result cy r v lat).pend = u.pend := by unfold SUnit.result; split <;> first | rfl | simp
@[simp] theorem result_spin (u : SUnit) (cy r : Nat) (v : W64) (lat : Nat) : (u.result cy r v lat).spin = u.spin := by unfold SUnit.result; split <;> first | rfl | simp
@[simp] theorem result_triggered (u : SUnit) (cy r : Nat) (v : W64) (lat : Nat) : (u.result cy r v lat).triggered = u.triggered := by unfold SUnit.result; split <;> first | rfl | simp
@[simp] theorem result_steps (u : SUnit) (cy r : Nat) (v : W64) (lat : Nat) : (u.result cy r v lat).steps = u.steps := by unfold SUnit.result; split <;> first | rfl | simp
@[simp] theorem result_word (u : SUnit) (cy r : Nat) (v : W64) (lat : Nat) : (u.result cy r v lat).word = u.word := by unfold SUnit.result; split <;> first | rfl | simp
@[simp] theorem result_farNext (u : SUnit) (cy r : Nat) (v : W64) (lat : Nat) : (u.result cy r v lat).farNext = u.farNext := by unfold SUnit.result; split <;> first | rfl | simp
@[simp] theorem result_farDone (u : SUnit) (cy r : Nat) (v : W64) (lat : Nat) : (u.result cy r v lat).farDone = u.farDone := by unfold SUnit.result; split <;> first | rfl | simp
@[simp] theorem result_bm (u : SUnit) (cy r : Nat) (v : W64) (lat : Nat) : (u.result cy r v lat).bm = u.bm := by unfold SUnit.result; split <;> first | rfl | simp
@[simp] theorem result_dwaited (u : SUnit) (cy r : Nat) (v : W64) (lat : Nat) : (u.result cy r v lat).dwaited = u.dwaited := by unfold SUnit.result; split <;> first | rfl | simp
@[simp] theorem resultPred_x (u : SUnit) (cy n : Nat) (v : Bool) (lat : Nat) : (u.resultPred cy n v lat).x = u.x := by unfold SUnit.resultPred; split <;> first | rfl | simp
@[simp] theorem resultPred_pc (u : SUnit) (cy n : Nat) (v : Bool) (lat : Nat) : (u.resultPred cy n v lat).pc = u.pc := by unfold SUnit.resultPred; split <;> first | rfl | simp
@[simp] theorem resultPred_ras (u : SUnit) (cy n : Nat) (v : Bool) (lat : Nat) : (u.resultPred cy n v lat).ras = u.ras := by unfold SUnit.resultPred; split <;> first | rfl | simp
@[simp] theorem resultPred_rspill (u : SUnit) (cy n : Nat) (v : Bool) (lat : Nat) : (u.resultPred cy n v lat).rspill = u.rspill := by unfold SUnit.resultPred; split <;> first | rfl | simp
@[simp] theorem resultPred_epc (u : SUnit) (cy n : Nat) (v : Bool) (lat : Nat) : (u.resultPred cy n v lat).epc = u.epc := by unfold SUnit.resultPred; split <;> first | rfl | simp
@[simp] theorem resultPred_cause (u : SUnit) (cy n : Nat) (v : Bool) (lat : Nat) : (u.resultPred cy n v lat).cause = u.cause := by unfold SUnit.resultPred; split <;> first | rfl | simp
@[simp] theorem resultPred_inh (u : SUnit) (cy n : Nat) (v : Bool) (lat : Nat) : (u.resultPred cy n v lat).inh = u.inh := by unfold SUnit.resultPred; split <;> first | rfl | simp
@[simp] theorem resultPred_next (u : SUnit) (cy n : Nat) (v : Bool) (lat : Nat) : (u.resultPred cy n v lat).next = u.next := by unfold SUnit.resultPred; split <;> first | rfl | simp
@[simp] theorem resultPred_performed (u : SUnit) (cy n : Nat) (v : Bool) (lat : Nat) : (u.resultPred cy n v lat).performed = u.performed := by unfold SUnit.resultPred; split <;> first | rfl | simp
@[simp] theorem resultPred_wait (u : SUnit) (cy n : Nat) (v : Bool) (lat : Nat) : (u.resultPred cy n v lat).wait = u.wait := by unfold SUnit.resultPred; split <;> first | rfl | simp
@[simp] theorem resultPred_pend (u : SUnit) (cy n : Nat) (v : Bool) (lat : Nat) : (u.resultPred cy n v lat).pend = u.pend := by unfold SUnit.resultPred; split <;> first | rfl | simp
@[simp] theorem resultPred_spin (u : SUnit) (cy n : Nat) (v : Bool) (lat : Nat) : (u.resultPred cy n v lat).spin = u.spin := by unfold SUnit.resultPred; split <;> first | rfl | simp
@[simp] theorem resultPred_triggered (u : SUnit) (cy n : Nat) (v : Bool) (lat : Nat) : (u.resultPred cy n v lat).triggered = u.triggered := by unfold SUnit.resultPred; split <;> first | rfl | simp
@[simp] theorem resultPred_steps (u : SUnit) (cy n : Nat) (v : Bool) (lat : Nat) : (u.resultPred cy n v lat).steps = u.steps := by unfold SUnit.resultPred; split <;> first | rfl | simp
@[simp] theorem resultPred_word (u : SUnit) (cy n : Nat) (v : Bool) (lat : Nat) : (u.resultPred cy n v lat).word = u.word := by unfold SUnit.resultPred; split <;> first | rfl | simp
@[simp] theorem resultPred_farNext (u : SUnit) (cy n : Nat) (v : Bool) (lat : Nat) : (u.resultPred cy n v lat).farNext = u.farNext := by unfold SUnit.resultPred; split <;> first | rfl | simp
@[simp] theorem resultPred_farDone (u : SUnit) (cy n : Nat) (v : Bool) (lat : Nat) : (u.resultPred cy n v lat).farDone = u.farDone := by unfold SUnit.resultPred; split <;> first | rfl | simp
@[simp] theorem resultPred_bm (u : SUnit) (cy n : Nat) (v : Bool) (lat : Nat) : (u.resultPred cy n v lat).bm = u.bm := by unfold SUnit.resultPred; split <;> first | rfl | simp
@[simp] theorem resultPred_dwaited (u : SUnit) (cy n : Nat) (v : Bool) (lat : Nat) : (u.resultPred cy n v lat).dwaited = u.dwaited := by unfold SUnit.resultPred; split <;> first | rfl | simp
theorem reg_result (u : SUnit) (cy r j : Nat) (v : W64) (lat : Nat) : (u.result cy r v lat).reg j = if j = r ∧ r ≠ 0 then v else u.reg j := by
  rw [← reg_setReg]; unfold SUnit.result SUnit.setReg; split <;> rfl
theorem pred_result (u : SUnit) (cy r j : Nat) (v : W64) (lat : Nat) : (u.result cy r v lat).pred j = u.pred j := by
  simp [SUnit.pred]
theorem pred_resultPred (u : SUnit) (cy n j : Nat) (v : Bool) (lat : Nat) (hn : n < 8) (hj : j < 8) :
    (u.resultPred cy n v lat).pred j = if j = n ∧ n ≠ 0 then v else u.pred j := by
  rw [← pred_setPred u n j v hn hj]; unfold SUnit.resultPred SUnit.setPred; split <;> rfl
theorem reg_resultPred (u : SUnit) (cy n j : Nat) (v : Bool) (lat : Nat) : (u.resultPred cy n v lat).reg j = u.reg j := by
  simp [SUnit.reg]
@[simp] theorem resultLat_p (u : SUnit) (cy now r : Nat) (v : W64) (l : Lat) : (u.resultLat cy now r v l).p = u.p := by unfold SUnit.resultLat; split <;> first | rfl | simp
@[simp] theorem resultLat_pc (u : SUnit) (cy now r : Nat) (v : W64) (l : Lat) : (u.resultLat cy now r v l).pc = u.pc := by unfold SUnit.resultLat; split <;> first | rfl | simp
@[simp] theorem resultLat_ras (u : SUnit) (cy now r : Nat) (v : W64) (l : Lat) : (u.resultLat cy now r v l).ras = u.ras := by unfold SUnit.resultLat; split <;> first | rfl | simp
@[simp] theorem resultLat_rspill (u : SUnit) (cy now r : Nat) (v : W64) (l : Lat) : (u.resultLat cy now r v l).rspill = u.rspill := by unfold SUnit.resultLat; split <;> first | rfl | simp
@[simp] theorem resultLat_epc (u : SUnit) (cy now r : Nat) (v : W64) (l : Lat) : (u.resultLat cy now r v l).epc = u.epc := by unfold SUnit.resultLat; split <;> first | rfl | simp
@[simp] theorem resultLat_cause (u : SUnit) (cy now r : Nat) (v : W64) (l : Lat) : (u.resultLat cy now r v l).cause = u.cause := by unfold SUnit.resultLat; split <;> first | rfl | simp
@[simp] theorem resultLat_inh (u : SUnit) (cy now r : Nat) (v : W64) (l : Lat) : (u.resultLat cy now r v l).inh = u.inh := by unfold SUnit.resultLat; split <;> first | rfl | simp
@[simp] theorem resultLat_next (u : SUnit) (cy now r : Nat) (v : W64) (l : Lat) : (u.resultLat cy now r v l).next = u.next := by unfold SUnit.resultLat; split <;> first | rfl | simp
@[simp] theorem resultLat_performed (u : SUnit) (cy now r : Nat) (v : W64) (l : Lat) : (u.resultLat cy now r v l).performed = u.performed := by unfold SUnit.resultLat; split <;> first | rfl | simp
@[simp] theorem resultLat_wait (u : SUnit) (cy now r : Nat) (v : W64) (l : Lat) : (u.resultLat cy now r v l).wait = u.wait := by unfold SUnit.resultLat; split <;> first | rfl | simp
@[simp] theorem resultLat_pend (u : SUnit) (cy now r : Nat) (v : W64) (l : Lat) : (u.resultLat cy now r v l).pend = u.pend := by unfold SUnit.resultLat; split <;> first | rfl | simp
@[simp] theorem resultLat_spin (u : SUnit) (cy now r : Nat) (v : W64) (l : Lat) : (u.resultLat cy now r v l).spin = u.spin := by unfold SUnit.resultLat; split <;> first | rfl | simp
@[simp] theorem resultLat_triggered (u : SUnit) (cy now r : Nat) (v : W64) (l : Lat) : (u.resultLat cy now r v l).triggered = u.triggered := by unfold SUnit.resultLat; split <;> first | rfl | simp
@[simp] theorem resultLat_steps (u : SUnit) (cy now r : Nat) (v : W64) (l : Lat) : (u.resultLat cy now r v l).steps = u.steps := by unfold SUnit.resultLat; split <;> first | rfl | simp
@[simp] theorem resultLat_word (u : SUnit) (cy now r : Nat) (v : W64) (l : Lat) : (u.resultLat cy now r v l).word = u.word := by unfold SUnit.resultLat; split <;> first | rfl | simp
@[simp] theorem resultLat_farNext (u : SUnit) (cy now r : Nat) (v : W64) (l : Lat) : (u.resultLat cy now r v l).farNext = u.farNext := by unfold SUnit.resultLat; split <;> first | rfl | simp
@[simp] theorem resultLat_farDone (u : SUnit) (cy now r : Nat) (v : W64) (l : Lat) : (u.resultLat cy now r v l).farDone = u.farDone := by unfold SUnit.resultLat; split <;> first | rfl | simp
@[simp] theorem resultLat_bm (u : SUnit) (cy now r : Nat) (v : W64) (l : Lat) : (u.resultLat cy now r v l).bm = u.bm := by unfold SUnit.resultLat; split <;> first | rfl | simp
@[simp] theorem resultLat_dwaited (u : SUnit) (cy now r : Nat) (v : W64) (l : Lat) : (u.resultLat cy now r v l).dwaited = u.dwaited := by unfold SUnit.resultLat; split <;> first | rfl | simp
/-- A register after a result whose time is partly in pulses: s0 discards it. -/
theorem reg_resultLat (u : SUnit) (cy now r j : Nat) (v : W64) (l : Lat) : (u.resultLat cy now r v l).reg j = if j = r ∧ r ≠ 0 then v else u.reg j := by
  rw [← reg_result u cy r j v l.dom]; unfold SUnit.resultLat
  split
  · rename_i h; subst h; rfl
  · rfl
theorem pred_resultLat (u : SUnit) (cy now r j : Nat) (v : W64) (l : Lat) : (u.resultLat cy now r v l).pred j = u.pred j := by
  simp [SUnit.pred]

end Sys2Proof.Machine
end

