-- ==== Sys2Proof/Laws/Ops.lean ====
section
/-! SUPPORT. What the shared operations of Ops.lean and Memory.lean do: traps and their records, tokens, entries, and what each leaves of memory. -/
namespace Sys2Proof.Machine

/-! ### Operations that leave memory alone -/

/-- A chain of steps that each leave memory alone leaves it alone. -/
theorem foldl_mem {α : Type} (f : State → α → State) (hf : ∀ s a, (f s a).mem = s.mem) (l : List α) (s : State) : (l.foldl f s).mem = s.mem := by
  induction l generalizing s with
  | nil => rfl
  | cons a l ih => simp only [List.foldl_cons]; rw [ih, hf]

@[simp] theorem postRecord_mem (s : State) (d : Nat) (r : FRec) : (postRecord s d r).mem = s.mem := rfl
@[simp] theorem postEvent_mem (s : State) (d c u k x n : Nat) (a i : W64) : (postEvent s d c u k x n a i).mem = s.mem := rfl
@[simp] theorem logEvent_mem (s : State) (k d : Nat) : (logEvent s k d).mem = s.mem := rfl
@[simp] theorem detachCore_mem (s : State) (c : Nat) : (detachCore s c).mem = s.mem := rfl
@[simp] theorem enterHandler_mem (s : State) (c k w : Nat) : (enterHandler s c k w).mem = s.mem := rfl
@[simp] theorem reportS_mem (s : State) (c k n w : Nat) (a : W64) (i : Option Nat) : (reportS s c k n w a i).mem = s.mem := rfl
@[simp] theorem trapS_mem (s : State) (c k w : Nat) (i : Option Nat) : (trapS s c k w i).mem = s.mem := by
  unfold trapS; dsimp only; split <;> simp
@[simp] theorem returnFromHandler_mem (s : State) (c : Nat) : (returnFromHandler s c).mem = s.mem := rfl
@[simp] theorem stopEngine_mem (s : State) (c e k n : Nat) (a : W64) (i : Option Nat) (b : Bool) : (stopEngine s c e k n a i b).mem = s.mem := rfl
@[simp] theorem trapEngine_mem (s : State) (c e k : Nat) (i : Option Nat) : (trapEngine s c e k i).mem = s.mem := rfl
@[simp] theorem racePut_mem (s : State) (w : Who) (r : RaceUnit) : (racePut s w r).mem = s.mem := by
  unfold racePut; split <;> rfl
@[simp] theorem dropCache_mem (s : State) (k n : Nat) : (dropCache s k n).mem = s.mem := rfl
@[simp] theorem acquireBy_mem (s : State) (c e n : Nat) (r : Rel) : (acquireBy s c e n r).mem = s.mem := by
  unfold acquireBy; dsimp only; split <;> simp
@[simp] theorem bumpMasked_mem (s : State) (c e : Nat) (m : BitVec 16) : (bumpMasked s c e m).mem = s.mem := by unfold bumpMasked; simp
@[simp] theorem bumpUnit_mem (s : State) (c e : Nat) : (bumpUnit s c e).mem = s.mem := bumpMasked_mem s c e 0xFFFF
@[simp] theorem releaseS_mem (s : State) (c : Nat) : (releaseS s c).2.mem = s.mem := by unfold releaseS; simp
@[simp] theorem progress_mem (s : State) (c : Nat) : (progress s c).mem = s.mem := rfl
@[simp] theorem popTok_mem (s : State) (c f d : Nat) : (popTok s c f d).mem = s.mem := rfl
@[simp] theorem popNet_mem (s : State) (c : Nat) : (popNet s c).mem = s.mem := rfl
theorem pushTok_mem (s t : State) (c f d : Nat) (r : Rel) (h : pushTok s c f d r = some t) : t.mem = s.mem := by
  unfold pushTok at h; dsimp only at h
  split at h
  · cases h
  · cases h; rfl
@[simp] theorem modStrandQ_mem (s : State) (i : Nat) (f : Queues → Queues) : (s.modStrandQ i f).mem = s.mem := by
  unfold State.modStrandQ; split <;> rfl
@[simp] theorem netPhase_mem (s : State) (k n : Nat) : (netPhase s k n).mem = s.mem := by
  unfold netPhase; dsimp only
  rw [modCluster_mem]
  exact foldl_mem (fun (s : State) c => s.modStrandQ c fun q => { q with arrivals := q.arrivals.drop 1 }) (fun _ _ => modStrandQ_mem _ _ _) _ _
@[simp] theorem netCheckGo_mem (f : Nat) (s : State) (k n : Nat) : (netCheckGo s k n f).mem = s.mem := by
  induction f generalizing s with
  | zero => rfl
  | succ f ih => unfold netCheckGo; split <;> simp [ih]
@[simp] theorem netCheck_mem (s : State) (k n : Nat) : (netCheck s k n).mem = s.mem := by unfold netCheck; simp
@[simp] theorem netArrive_mem (s : State) (c : Nat) (r : Rel) : (netArrive s c r).mem = s.mem := by unfold netArrive; simp; rfl
@[simp] theorem netLeave_mem (s : State) (c k n : Nat) : (netLeave s c k n).mem = s.mem := by unfold netLeave; simp
@[simp] theorem signalGo_mem (l : List Nat) (s : State) (c e : Nat) (m : BitVec 8) (r : Rel) : (signalGo s c e m r l).mem = s.mem := by
  induction l generalizing s with
  | nil => rfl
  | cons b l ih =>
    unfold signalGo
    split
    · split
      · rw [ih]; simp
      · split
        · rename_i t ht
          rw [ih]
          split at ht
          · cases ht
          · exact pushTok_mem _ _ _ _ _ _ ht
        · rw [ih]; rfl
    · exact ih s
@[simp] theorem signalTokens_mem (s : State) (c e : Nat) (m : BitVec 8) (r : Rel) : (signalTokens s c e m r).mem = s.mem := by unfold signalTokens; simp
@[simp] theorem completeEntry_mem (s : State) (c e : Nat) (m : BitVec 8) : (completeEntry s c e m).mem = s.mem := by unfold completeEntry; simp
@[simp] theorem popWaitGo_mem (l : List Nat) (s : State) (c e : Nat) (m : BitVec 8) : (popWaitGo s c e m l).mem = s.mem := by
  induction l generalizing s with
  | nil => rfl
  | cons b l ih =>
    unfold popWaitGo
    split
    · dsimp only
      rw [ih]
      split <;> split <;> simp
    · exact ih s
@[simp] theorem popWait_mem (s : State) (c e : Nat) (m : BitVec 8) : (popWait s c e m).mem = s.mem := by unfold popWait; simp
@[simp] theorem dropIssued_mem (s : State) (c : Nat) : (dropIssued s c).mem = s.mem := rfl
@[simp] theorem retire_mem (s : State) (c : Nat) (n : Option W64) (l : Nat) (k : IKind) (b : Bool) : (retire s c n l k b).mem = s.mem := rfl

@[simp] theorem startEntry_mem (s : State) (c e n : Nat) (m : BitVec 8) : (startEntry s c e n m).mem = s.mem := by
  unfold startEntry; rw [popWait_mem, foldl_mem _ (fun s r => acquireBy_mem s c e 0 r)]
@[simp] theorem advanceHead_mem (s : State) (c e n : Nat) : (advanceHead s c e n).mem = s.mem := by
  unfold advanceHead; dsimp only
  split
  · rw [foldl_mem]; rfl
    intro t i; split <;> rfl
  · rfl
@[simp] theorem startWalk_mem (s : State) (w : Who) (va : Nat) (a b : Bool) (p : Nat × Nat) : (startWalk s w va a b p).mem = s.mem := by
  unfold startWalk startWalkAt; dsimp only; split <;> rfl
@[simp] theorem noteStall_mem (s : State) (m : Option StallMark) : (noteStall s m).mem = s.mem := by cases m <;> rfl
@[simp] theorem unpoison_mem (s : State) (a n : Nat) : (unpoison s a n).mem = s.mem := by unfold unpoison; split <;> rfl
@[simp] theorem wakeParks_mem (s : State) (a n : Nat) (w : Who) (b : Bool) : (wakeParks s a n w b).mem = s.mem := by
  unfold wakeParks; dsimp only; split <;> rfl
@[simp] theorem noteFlags_mem (s : State) (a n : Nat) : (noteFlags s a n).mem = s.mem := by unfold noteFlags; split <;> rfl
@[simp] theorem shadowWrite_mem (s : State) (w : Who) (a c : Nat) (b r : Bool) : (shadowWrite s w a c b r).mem = s.mem := by
  unfold shadowWrite; split
  · rfl
  · simp
@[simp] theorem setFull_mem (s : State) (k : Nat) (r : Option Rel) : (setFull s k r).mem = s.mem := rfl
@[simp] theorem clearFull_mem (s : State) (k : Nat) : (clearFull s k).mem = s.mem := rfl
@[simp] theorem setFullRange_mem (s : State) (a n : Nat) (o : Nat → Bool) (r : Option Rel) : (setFullRange s a n o r).mem = s.mem := by
  unfold setFullRange; split
  · rfl
  · exact foldl_mem (fun s i => if o (granNo (16 * (a / 16 + i))) then s else setFull s (a / 16 + i) r) (fun _ _ => by split <;> rfl) _ _
@[simp] theorem refill_mem (s : State) (w : Who) (va : Nat) : (refill s w va).mem = s.mem := by
  unfold refill; dsimp only; split
  · split <;> rfl
  · rfl
@[simp] theorem cacheLine_mem (s : State) (k l : Nat) : (cacheLine s k l).2.mem = s.mem := by
  unfold cacheLine; dsimp only
  split
  · rfl
  · split
    · split <;> rfl
    · split <;> rfl

/-! ### Taking a trap (R322, R361) -/

/-- A trap of S: with the handler enabled and not inhibited it enters the handler, else S reports and waits. -/
theorem trapS_cases (s : State) (c k w : Nat) (i : Option Nat) :
    (trapS s c k w i = enterHandler (detachCore s c) c k w ∧ (s.ctxOf c).tven = true ∧ (s.core c).su.inh = false) ∨
    (trapS s c k w i = reportS (detachCore s c) c k 0 w (s.core c).su.pc i ∧ ((s.ctxOf c).tven && !(s.core c).su.inh) = false) := by
  have hs : ((detachCore s c).core c).su = (s.core c).su := by
    unfold detachCore; simp only [State.modPr, modCore_core_self]
  have hx : (detachCore s c).ctxOf c = s.ctxOf c := by
    unfold State.ctxOf detachCore; simp only [State.modPr, modCore_core_self, modCore_ctx]
  unfold trapS; dsimp only
  rw [hs, hx]
  cases h : ((s.ctxOf c).tven && !(s.core c).su.inh)
  · exact .inr ⟨by simp, rfl⟩
  · simp only [Bool.and_eq_true, Bool.not_eq_true'] at h
    exact .inl ⟨by simp, h.1, h.2⟩

/-! ### What a write does to memory -/

/-- Writing bytes puts them at their address and changes no other byte. -/
@[simp] theorem pokeBytes_mem (s : State) (w : Who) (a : Nat) (l : List Byte) (b : Bool) : (pokeBytes s w a l b).mem = memPutBytes s.mem a l := by
  unfold pokeBytes; dsimp only
  rw [wakeParks_mem]
  split
  · rw [noteFlags_mem]; split
    · simp
    · simp
  · split
    · simp
    · simp
@[simp] theorem logPoke_mem (s : State) (c a : Nat) (l : List Byte) : (logPoke s c a l).mem = memPutBytes s.mem a l := by
  unfold logPoke; simp
@[simp] theorem systemWrite_mem (s : State) (u a : Nat) (l : List Byte) : (systemWrite s u a l).mem = memPutBytes s.mem a l := by
  unfold systemWrite; simp

/-- A record of the race log keeps memory's canonical form. -/
theorem raceLog_wf (s : State) (w : Who) (va c n k : Nat) (sh : Shadow) (h : Option W32) (hs : Memory.wf s.mem = true) :
    Memory.wf (raceLog s w va c n k sh h).2.mem = true := by
  unfold raceLog; dsimp only
  split
  · exact hs
  · split
    · exact hs
    · split
      · simp only [logPoke_mem]; exact wf_memPutBytes _ _ _ hs
      · split
        · simp only [logPoke_mem]
          repeat' apply wf_memPutBytes
          exact hs
        · exact hs

/-- A check for races either passes or traps with 0x40; memory keeps its form. -/
theorem raceCheck_cases (s : State) (w : Who) (va a c : Nat) (b : Bool) (hs : Memory.wf s.mem = true) :
    (∃ t, raceCheck s w va a c b = .ok () t ∧ Memory.wf t.mem = true) ∨ (∃ i t, raceCheck s w va a c b = .trap 0x40 (some i) t ∧ Memory.wf t.mem = true) := by
  have hl := fun sh n k h => raceLog_wf s w va c n k sh h hs
  generalize hg : raceCheck s w va a c b = g
  unfold raceCheck at hg
  generalize raceLog s w va c = log at hg hl
  dsimp only at hg
  split at hg
  · subst hg; exact .inl ⟨s, rfl, hs⟩
  · split at hg
    · subst hg; exact .inl ⟨s, rfl, hs⟩
    · repeat' split at hg
      all_goals (subst hg; first | exact .inl ⟨_, rfl, hs⟩ | exact .inl ⟨_, rfl, hl _ _ _ _⟩ | exact .inr ⟨_, _, rfl, hl _ _ _ _⟩)

/-- Resolving an address leaves memory alone. -/
theorem place_ok_mem (s t : State) (w : Who) (va : Nat) (a b : Bool) (p : Place) (h : place s w va a b = .ok p t) : t.mem = s.mem := by
  unfold place at h
  split at h
  · cases h
  · injection h with _ e; rw [e]
  · injection h with _ e; rw [e]
  · split at h
    · cases h; simp
    · cases h
    · cases h
theorem place_trap_mem (s t : State) (w : Who) (va : Nat) (a b : Bool) (c : Nat) (i : Option Nat) (h : place s w va a b = .trap c i t) : t = s := by
  unfold place at h
  split at h
  · cases h; rfl
  · cases h
  · cases h
  · split at h
    · cases h
    · cases h; rfl
    · cases h

/-- The state an access ends in, where it ends in one. -/
def Got.after {α : Type} : Got α → Option State
  | .ok _ s => some s
  | .trap _ _ s => some s
  | .stall _ => none
  | .miss _ _ _ => none

theorem raceCheck_after_wf (s t : State) (w : Who) (va a c : Nat) (b : Bool) (hs : Memory.wf s.mem = true) (h : (raceCheck s w va a c b).after = some t) :
    Memory.wf t.mem = true := by
  rcases raceCheck_cases s w va a c b hs with ⟨u, e, hu⟩ | ⟨i, u, e, hu⟩ <;> rw [e] at h <;> cases h <;> exact hu

theorem bind_after {α β : Type} (g : Got α) (f : α → State → Got β) (t : State) (h : (g.bind f).after = some t) :
    (∃ a s, g = .ok a s ∧ (f a s).after = some t) ∨ (∃ c i, g = .trap c i t) := by
  cases g with
  | ok a s => exact .inl ⟨a, s, rfl, h⟩
  | trap c i s => cases h; exact .inr ⟨c, i, rfl⟩
  | stall m => cases h
  | miss a b c => cases h

/-- A read by an engine keeps memory's form. -/
theorem readEng_wf (s t : State) (w : Who) (va n c : Nat) (hs : Memory.wf s.mem = true) (h : (readEng s w va n c).after = some t) : Memory.wf t.mem = true := by
  unfold readEng at h
  rcases bind_after _ _ _ h with ⟨p, u, hp, h⟩ | ⟨k, i, hp⟩
  · have hu : Memory.wf u.mem = true := by rw [place_ok_mem _ _ _ _ _ _ _ hp]; exact hs
    split at h
    · cases h
    · split at h
      · cases h; exact hu
      · split at h
        · cases h; exact hu
        · rcases bind_after _ _ _ h with ⟨q, v, hq, h⟩ | ⟨k, i, hq⟩
          · cases h; exact raceCheck_after_wf u t w va p.pa c false hu (by rw [hq]; rfl)
          · exact raceCheck_after_wf u t w va p.pa c false hu (by rw [hq]; rfl)
  · rw [place_trap_mem _ _ _ _ _ _ _ _ hp]; exact hs

/-- A write by an engine keeps memory's form. -/
theorem writeEng_wf (s t : State) (w : Who) (va n v c : Nat) (hs : Memory.wf s.mem = true) (h : (writeEng s w va n v c).after = some t) : Memory.wf t.mem = true := by
  unfold writeEng at h
  rcases bind_after _ _ _ h with ⟨p, u, hp, h⟩ | ⟨k, i, hp⟩
  · have hu : Memory.wf u.mem = true := by rw [place_ok_mem _ _ _ _ _ _ _ hp]; exact hs
    dsimp only at h
    split at h
    · cases h
    · split at h
      · cases h
        simp only [setFullRange_mem, shadowWrite_mem, pokeBytes_mem]
        exact wf_memPutBytes _ _ _ hu
      · rcases bind_after _ _ _ h with ⟨q, x, hq, h⟩ | ⟨k, i, hq⟩
        · cases h
          simp only [setFullRange_mem, shadowWrite_mem, pokeBytes_mem]
          exact wf_memPutBytes _ _ _ (raceCheck_after_wf u x w va p.pa c true hu (by rw [hq]; rfl))
        · exact raceCheck_after_wf u t w va p.pa c true hu (by rw [hq]; rfl)
  · rw [place_trap_mem _ _ _ _ _ _ _ _ hp]; exact hs

/-! ### Members of a phase (R20) -/

theorem nodup_eraseDups {α : Type} [DecidableEq α] : ∀ (n : Nat) (l : List α), l.length ≤ n → l.eraseDups.Nodup
  | _, [], _ => by simp
  | n + 1, a :: l, h => by
    rw [List.eraseDups_cons, List.nodup_cons, List.mem_eraseDups]
    exact ⟨by simp, nodup_eraseDups n _ (Nat.le_trans (List.length_filter_le ..) (Nat.le_of_succ_le_succ h))⟩

/-- No strand is a member of a phase twice. -/
theorem members_nodup (s : State) (k kern : Nat) : (members s k kern).Nodup := nodup_eraseDups _ _ (Nat.le_refl _)

/-- The members of a phase: the cores of the cluster that hold the kernel's strands, and the kernel's displaced strands of that cluster. -/
theorem mem_members {s : State} {k kern i : Nat} : i ∈ members s k kern ↔
    ((∃ j, j < 8 ∧ i = k * 8 + j) ∧ (s.core i).mir.st ≠ .idle ∧ (s.core i).kern = kern) ∨ (i ∈ awayOf s kern ∧ clusterOf (strandCore i) = k) := by
  unfold members
  simp [List.mem_eraseDups, @eq_comm Nat _ i]

end Sys2Proof.Machine
end

