-- ==== Sys2Proof/Laws/PerInstr.lean ====
section
/-! SUPPORT. Statements made per instruction: decoding the words of a well-formed instruction gives it back. -/

set_option linter.unusedSimpArgs false

namespace Sys2Proof.Laws

/-- A well-formed V word's WAIT is no MARK (R165): check 3 refuses its own bit. -/
theorem vWf_wait (f : Machine.VForm) (w : VWord) (h : vWf f w = true) : w.wait ≠ 0xFF#8 := by
  intro e; simp [vWf, Machine.VForm.fault, e] at h
theorem eWf_wait (l : List Nat) (w : EWord) (ok : Bool) (r : Machine.RF) (h : eWf l w ok r = true) : w.wait ≠ 0xFF#8 := by
  unfold eWf at h; simp at h; exact h.1

/-- The word of a V command decodes by its opcode. -/
theorem decodeEntry_v (c : BitVec 8) (w : VWord) (h : w.wait ≠ 0xFF#8) : decodeEncoded (.entry .v [vWord c w]) = decodeV c.toNat w := by
  show decodeEntry .v _ _ = _
  unfold decodeEntry
  rw [if_neg (by simp [cWait, v_wait, h])]
  simp [cOp, v_op, v_fields]

/-- The words of a format E entry decode by its map's own table. -/
theorem decodeEntry_e (map : EngineMap) (c : BitVec 8) (w : EWord) (xs : List (BitVec 56)) (h : w.wait ≠ 0xFF#8) (hm : map ≠ .v) :
    decodeEncoded (.entry map (eWord c w :: xs.map extWord)) = match map with
      | .v => none
      | .l => decodeEL c.toNat w xs
      | .w => decodeEW c.toNat w xs
      | .m => decodeEM c.toNat w xs
      | .c => decodeEC c.toNat w xs := by
  have hx : (xs.map extWord).map xPayload = xs := by simp [Function.comp_def, ext_payload]
  have ha : (xs.map extWord).any (fun x => cWait x != 0xFF#8) = false := by simp [ext_mark]
  show decodeEntry map _ _ = _
  unfold decodeEntry
  rw [if_neg (by simp only [ha]; simp [cWait, e_wait, h])]
  cases map <;> simp only [cOp, e_op, e_fields, hx]
  exact absurd rfl hm

namespace RoundTrip

/-- Decoding what an instruction is encoded as gives it back; a step of a unit has no word. -/
def Statement (i : Instr) : Prop := i.wf = true → encode i = .noWord ∨ decodeEncoded (encode i) = some i

theorem parkWake (core : Nat) : Statement (.parkWake core) := fun _ => .inl rfl
theorem parkTimeout (core : Nat) : Statement (.parkTimeout core) := fun _ => .inl rfl
theorem cdfBankSwitch (core : Nat) (slot : Nat) : Statement (.cdfBankSwitch core slot) := fun _ => .inl rfl
theorem resultLanding (core : Nat) : Statement (.resultLanding core) := fun _ => .inl rfl
theorem tokenPush (core : Nat) (frm : Nat) (dest : Nat) : Statement (.tokenPush core frm dest) := fun _ => .inl rfl
theorem inboxPush (core : Nat) : Statement (.inboxPush core) := fun _ => .inl rfl
theorem networkCompletionToken (cl : Nat) : Statement (.networkCompletionToken cl) := fun _ => .inl rfl
theorem messageArrival (id : Nat) : Statement (.messageArrival id) := fun _ => .inl rfl
theorem xtBankFull (core : Nat) (bank : Nat) : Statement (.xtBankFull core bank) := fun _ => .inl rfl
theorem dqElementPush (core : Nat) (eng : Nat) : Statement (.dqElementPush core eng) := fun _ => .inl rfl
theorem sqElementPop (core : Nat) : Statement (.sqElementPop core) := fun _ => .inl rfl
theorem leaseGrant (cl : Nat) : Statement (.leaseGrant cl) := fun _ => .inl rfl
theorem mmulBlockWrite (core : Nat) : Statement (.mmulBlockWrite core) := fun _ => .inl rfl
theorem mmulDrainStart (core : Nat) : Statement (.mmulDrainStart core) := fun _ => .inl rfl
theorem mdrainComplete (core : Nat) : Statement (.mdrainComplete core) := fun _ => .inl rfl
theorem operandFetchArrival (core : Nat) : Statement (.operandFetchArrival core) := fun _ => .inl rfl
theorem copyChannelStart (cl : Nat) (ch : Nat) : Statement (.copyChannelStart cl ch) := fun _ => .inl rfl
theorem copyBytesLand (cl : Nat) (ch : Nat) : Statement (.copyBytesLand cl ch) := fun _ => .inl rfl
theorem copyComplete (cl : Nat) (ch : Nat) : Statement (.copyComplete cl ch) := fun _ => .inl rfl
theorem accRowWrite (cl : Nat) (ch : Nat) : Statement (.accRowWrite cl ch) := fun _ => .inl rfl
theorem frontEndMulticast (cl : Nat) : Statement (.frontEndMulticast cl) := fun _ => .inl rfl
theorem voteResolve (cl : Nat) : Statement (.voteResolve cl) := fun _ => .inl rfl
theorem joinTimeout (cl : Nat) : Statement (.joinTimeout cl) := fun _ => .inl rfl
theorem frontEndRestart (cl : Nat) : Statement (.frontEndRestart cl) := fun _ => .inl rfl
theorem fetchLineArrival (cl : Nat) (party : Nat) : Statement (.fetchLineArrival cl party) := fun _ => .inl rfl
theorem poolPutArrival (id : Nat) : Statement (.poolPutArrival id) := fun _ => .inl rfl
theorem insertCounted (id : Nat) : Statement (.insertCounted id) := fun _ => .inl rfl
theorem poolSnapshot (pool : Nat) : Statement (.poolSnapshot pool) := fun _ => .inl rfl
theorem snapshotArrival (id : Nat) : Statement (.snapshotArrival id) := fun _ => .inl rfl
theorem takeDecide (pool : Nat) (shard : Nat) : Statement (.takeDecide pool shard) := fun _ => .inl rfl
theorem takeForwardArrival (id : Nat) : Statement (.takeForwardArrival id) := fun _ => .inl rfl
theorem takePromotion (pool : Nat) (shard : Nat) : Statement (.takePromotion pool shard) := fun _ => .inl rfl
theorem forcedRoundServe (id : Nat) : Statement (.forcedRoundServe id) := fun _ => .inl rfl
theorem migrationTransfer (id : Nat) : Statement (.migrationTransfer id) := fun _ => .inl rfl
theorem poolResultReturn (id : Nat) : Statement (.poolResultReturn id) := fun _ => .inl rfl
theorem translationWalkDone (id : Nat) : Statement (.translationWalkDone id) := fun _ => .inl rfl
theorem faultRecordWrite (die : Nat) : Statement (.faultRecordWrite die) := fun _ => .inl rfl
theorem saveWrite (core : Nat) : Statement (.saveWrite core) := fun _ => .inl rfl
theorem pktEnd (die : Nat) (w : BitVec 64) : Statement (.pktEnd die w) := fun _ => .inl rfl
theorem pktLaunch (die : Nat) (w : BitVec 64) (a : BitVec 64) : Statement (.pktLaunch die w a) := fun _ => .inl rfl
theorem pktLaunchi (die : Nat) (w : BitVec 64) (a : BitVec 64) (b : BitVec 64) : Statement (.pktLaunchi die w a b) := fun _ => .inl rfl
theorem pktXfer (die : Nat) (w : BitVec 64) (a : BitVec 64) (b : BitVec 64) (c : BitVec 64) : Statement (.pktXfer die w a b c) := fun _ => .inl rfl
theorem pktLoop (die : Nat) (w : BitVec 64) : Statement (.pktLoop die w) := fun _ => .inl rfl
theorem pktLoopi (die : Nat) (w : BitVec 64) (a : BitVec 64) : Statement (.pktLoopi die w a) := fun _ => .inl rfl
theorem pktEndloop (die : Nat) (w : BitVec 64) : Statement (.pktEndloop die w) := fun _ => .inl rfl
theorem pktSkipif (die : Nat) (w : BitVec 64) (a : BitVec 64) (b : BitVec 64) : Statement (.pktSkipif die w a b) := fun _ => .inl rfl
theorem pktWait (die : Nat) (w : BitVec 64) : Statement (.pktWait die w) := fun _ => .inl rfl
theorem entryIssue (seq : Nat) : Statement (.entryIssue seq) := fun _ => .inl rfl
theorem strandStart (core : Nat) : Statement (.strandStart core) := fun _ => .inl rfl
theorem priorityAgeing (seq : Nat) : Statement (.priorityAgeing seq) := fun _ => .inl rfl
theorem xferCopyStart (seq : Nat) : Statement (.xferCopyStart seq) := fun _ => .inl rfl
theorem xferResident (seq : Nat) : Statement (.xferResident seq) := fun _ => .inl rfl
theorem kernelRetire (seq : Nat) : Statement (.kernelRetire seq) := fun _ => .inl rfl
theorem tagStateArrival (id : Nat) : Statement (.tagStateArrival id) := fun _ => .inl rfl
theorem throttleWindow (cl : Nat) : Statement (.throttleWindow cl) := fun _ => .inl rfl
theorem watchdogIntervalEnd (core : Nat) : Statement (.watchdogIntervalEnd core) := fun _ => .inl rfl
theorem deliveryTurn (die : Nat) : Statement (.deliveryTurn die) := fun _ => .inl rfl
theorem repetitionTrap (core : Nat) : Statement (.repetitionTrap core) := fun _ => .inl rfl
theorem tsuiqCopyComplete (port : Nat) : Statement (.tsuiqCopyComplete port) := fun _ => .inl rfl
theorem takeArrival (id : Nat) : Statement (.takeArrival id) := fun _ => .inl rfl
theorem putStopArrival (pool : Nat) (shard : Nat) : Statement (.putStopArrival pool shard) := fun _ => .inl rfl
theorem errorFreezeEnd (cl : Nat) : Statement (.errorFreezeEnd cl) := fun _ => .inl rfl
theorem add (g : BitVec 3) (d : BitVec 5) (a : BitVec 5) (b : BitVec 5) : Statement (.add g d a b) := fun _ => .inr (by
  show decodeScalar _ = _
  unfold decodeScalar; rw [rr_major]
  show decodeInt _ = _
  simp (disch := decide) only [decodeInt, fG, fD, fA, fB, fFn, rr_f, rr_b, rr_a, rr_d, rr_g, slice_all, slice_low, slice_high, pred_top, pred_low, Nat.reduceSub, BitVec.reduceExtractLsb', BitVec.reduceToNat, if_true, and_self])
theorem sub (g : BitVec 3) (d : BitVec 5) (a : BitVec 5) (b : BitVec 5) : Statement (.sub g d a b) := fun _ => .inr (by
  show decodeScalar _ = _
  unfold decodeScalar; rw [rr_major]
  show decodeInt _ = _
  simp (disch := decide) only [decodeInt, fG, fD, fA, fB, fFn, rr_f, rr_b, rr_a, rr_d, rr_g, slice_all, slice_low, slice_high, pred_top, pred_low, Nat.reduceSub, BitVec.reduceExtractLsb', BitVec.reduceToNat, if_true, and_self])
theorem and (g : BitVec 3) (d : BitVec 5) (a : BitVec 5) (b : BitVec 5) : Statement (.and g d a b) := fun _ => .inr (by
  show decodeScalar _ = _
  unfold decodeScalar; rw [rr_major]
  show decodeInt _ = _
  simp (disch := decide) only [decodeInt, fG, fD, fA, fB, fFn, rr_f, rr_b, rr_a, rr_d, rr_g, slice_all, slice_low, slice_high, pred_top, pred_low, Nat.reduceSub, BitVec.reduceExtractLsb', BitVec.reduceToNat, if_true, and_self])
theorem or (g : BitVec 3) (d : BitVec 5) (a : BitVec 5) (b : BitVec 5) : Statement (.or g d a b) := fun _ => .inr (by
  show decodeScalar _ = _
  unfold decodeScalar; rw [rr_major]
  show decodeInt _ = _
  simp (disch := decide) only [decodeInt, fG, fD, fA, fB, fFn, rr_f, rr_b, rr_a, rr_d, rr_g, slice_all, slice_low, slice_high, pred_top, pred_low, Nat.reduceSub, BitVec.reduceExtractLsb', BitVec.reduceToNat, if_true, and_self])
theorem xor (g : BitVec 3) (d : BitVec 5) (a : BitVec 5) (b : BitVec 5) : Statement (.xor g d a b) := fun _ => .inr (by
  show decodeScalar _ = _
  unfold decodeScalar; rw [rr_major]
  show decodeInt _ = _
  simp (disch := decide) only [decodeInt, fG, fD, fA, fB, fFn, rr_f, rr_b, rr_a, rr_d, rr_g, slice_all, slice_low, slice_high, pred_top, pred_low, Nat.reduceSub, BitVec.reduceExtractLsb', BitVec.reduceToNat, if_true, and_self])
theorem andn (g : BitVec 3) (d : BitVec 5) (a : BitVec 5) (b : BitVec 5) : Statement (.andn g d a b) := fun _ => .inr (by
  show decodeScalar _ = _
  unfold decodeScalar; rw [rr_major]
  show decodeInt _ = _
  simp (disch := decide) only [decodeInt, fG, fD, fA, fB, fFn, rr_f, rr_b, rr_a, rr_d, rr_g, slice_all, slice_low, slice_high, pred_top, pred_low, Nat.reduceSub, BitVec.reduceExtractLsb', BitVec.reduceToNat, if_true, and_self])
theorem sll (g : BitVec 3) (d : BitVec 5) (a : BitVec 5) (b : BitVec 5) : Statement (.sll g d a b) := fun _ => .inr (by
  show decodeScalar _ = _
  unfold decodeScalar; rw [rr_major]
  show decodeInt _ = _
  simp (disch := decide) only [decodeInt, fG, fD, fA, fB, fFn, rr_f, rr_b, rr_a, rr_d, rr_g, slice_all, slice_low, slice_high, pred_top, pred_low, Nat.reduceSub, BitVec.reduceExtractLsb', BitVec.reduceToNat, if_true, and_self])
theorem srl (g : BitVec 3) (d : BitVec 5) (a : BitVec 5) (b : BitVec 5) : Statement (.srl g d a b) := fun _ => .inr (by
  show decodeScalar _ = _
  unfold decodeScalar; rw [rr_major]
  show decodeInt _ = _
  simp (disch := decide) only [decodeInt, fG, fD, fA, fB, fFn, rr_f, rr_b, rr_a, rr_d, rr_g, slice_all, slice_low, slice_high, pred_top, pred_low, Nat.reduceSub, BitVec.reduceExtractLsb', BitVec.reduceToNat, if_true, and_self])
theorem sra (g : BitVec 3) (d : BitVec 5) (a : BitVec 5) (b : BitVec 5) : Statement (.sra g d a b) := fun _ => .inr (by
  show decodeScalar _ = _
  unfold decodeScalar; rw [rr_major]
  show decodeInt _ = _
  simp (disch := decide) only [decodeInt, fG, fD, fA, fB, fFn, rr_f, rr_b, rr_a, rr_d, rr_g, slice_all, slice_low, slice_high, pred_top, pred_low, Nat.reduceSub, BitVec.reduceExtractLsb', BitVec.reduceToNat, if_true, and_self])
theorem mul (g : BitVec 3) (d : BitVec 5) (a : BitVec 5) (b : BitVec 5) : Statement (.mul g d a b) := fun _ => .inr (by
  show decodeScalar _ = _
  unfold decodeScalar; rw [rr_major]
  show decodeInt _ = _
  simp (disch := decide) only [decodeInt, fG, fD, fA, fB, fFn, rr_f, rr_b, rr_a, rr_d, rr_g, slice_all, slice_low, slice_high, pred_top, pred_low, Nat.reduceSub, BitVec.reduceExtractLsb', BitVec.reduceToNat, if_true, and_self])
theorem mulh (g : BitVec 3) (d : BitVec 5) (a : BitVec 5) (b : BitVec 5) : Statement (.mulh g d a b) := fun _ => .inr (by
  show decodeScalar _ = _
  unfold decodeScalar; rw [rr_major]
  show decodeInt _ = _
  simp (disch := decide) only [decodeInt, fG, fD, fA, fB, fFn, rr_f, rr_b, rr_a, rr_d, rr_g, slice_all, slice_low, slice_high, pred_top, pred_low, Nat.reduceSub, BitVec.reduceExtractLsb', BitVec.reduceToNat, if_true, and_self])
theorem mulhn (g : BitVec 3) (d : BitVec 5) (a : BitVec 5) (b : BitVec 5) : Statement (.mulhn g d a b) := fun _ => .inr (by
  show decodeScalar _ = _
  unfold decodeScalar; rw [rr_major]
  show decodeInt _ = _
  simp (disch := decide) only [decodeInt, fG, fD, fA, fB, fFn, rr_f, rr_b, rr_a, rr_d, rr_g, slice_all, slice_low, slice_high, pred_top, pred_low, Nat.reduceSub, BitVec.reduceExtractLsb', BitVec.reduceToNat, if_true, and_self])
theorem div (g : BitVec 3) (d : BitVec 5) (a : BitVec 5) (b : BitVec 5) : Statement (.div g d a b) := fun _ => .inr (by
  show decodeScalar _ = _
  unfold decodeScalar; rw [rr_major]
  show decodeInt _ = _
  simp (disch := decide) only [decodeInt, fG, fD, fA, fB, fFn, rr_f, rr_b, rr_a, rr_d, rr_g, slice_all, slice_low, slice_high, pred_top, pred_low, Nat.reduceSub, BitVec.reduceExtractLsb', BitVec.reduceToNat, if_true, and_self])
theorem divn (g : BitVec 3) (d : BitVec 5) (a : BitVec 5) (b : BitVec 5) : Statement (.divn g d a b) := fun _ => .inr (by
  show decodeScalar _ = _
  unfold decodeScalar; rw [rr_major]
  show decodeInt _ = _
  simp (disch := decide) only [decodeInt, fG, fD, fA, fB, fFn, rr_f, rr_b, rr_a, rr_d, rr_g, slice_all, slice_low, slice_high, pred_top, pred_low, Nat.reduceSub, BitVec.reduceExtractLsb', BitVec.reduceToNat, if_true, and_self])
theorem rem (g : BitVec 3) (d : BitVec 5) (a : BitVec 5) (b : BitVec 5) : Statement (.rem g d a b) := fun _ => .inr (by
  show decodeScalar _ = _
  unfold decodeScalar; rw [rr_major]
  show decodeInt _ = _
  simp (disch := decide) only [decodeInt, fG, fD, fA, fB, fFn, rr_f, rr_b, rr_a, rr_d, rr_g, slice_all, slice_low, slice_high, pred_top, pred_low, Nat.reduceSub, BitVec.reduceExtractLsb', BitVec.reduceToNat, if_true, and_self])
theorem remn (g : BitVec 3) (d : BitVec 5) (a : BitVec 5) (b : BitVec 5) : Statement (.remn g d a b) := fun _ => .inr (by
  show decodeScalar _ = _
  unfold decodeScalar; rw [rr_major]
  show decodeInt _ = _
  simp (disch := decide) only [decodeInt, fG, fD, fA, fB, fFn, rr_f, rr_b, rr_a, rr_d, rr_g, slice_all, slice_low, slice_high, pred_top, pred_low, Nat.reduceSub, BitVec.reduceExtractLsb', BitVec.reduceToNat, if_true, and_self])
theorem min (g : BitVec 3) (d : BitVec 5) (a : BitVec 5) (b : BitVec 5) : Statement (.min g d a b) := fun _ => .inr (by
  show decodeScalar _ = _
  unfold decodeScalar; rw [rr_major]
  show decodeInt _ = _
  simp (disch := decide) only [decodeInt, fG, fD, fA, fB, fFn, rr_f, rr_b, rr_a, rr_d, rr_g, slice_all, slice_low, slice_high, pred_top, pred_low, Nat.reduceSub, BitVec.reduceExtractLsb', BitVec.reduceToNat, if_true, and_self])
theorem max (g : BitVec 3) (d : BitVec 5) (a : BitVec 5) (b : BitVec 5) : Statement (.max g d a b) := fun _ => .inr (by
  show decodeScalar _ = _
  unfold decodeScalar; rw [rr_major]
  show decodeInt _ = _
  simp (disch := decide) only [decodeInt, fG, fD, fA, fB, fFn, rr_f, rr_b, rr_a, rr_d, rr_g, slice_all, slice_low, slice_high, pred_top, pred_low, Nat.reduceSub, BitVec.reduceExtractLsb', BitVec.reduceToNat, if_true, and_self])
theorem minn (g : BitVec 3) (d : BitVec 5) (a : BitVec 5) (b : BitVec 5) : Statement (.minn g d a b) := fun _ => .inr (by
  show decodeScalar _ = _
  unfold decodeScalar; rw [rr_major]
  show decodeInt _ = _
  simp (disch := decide) only [decodeInt, fG, fD, fA, fB, fFn, rr_f, rr_b, rr_a, rr_d, rr_g, slice_all, slice_low, slice_high, pred_top, pred_low, Nat.reduceSub, BitVec.reduceExtractLsb', BitVec.reduceToNat, if_true, and_self])
theorem maxn (g : BitVec 3) (d : BitVec 5) (a : BitVec 5) (b : BitVec 5) : Statement (.maxn g d a b) := fun _ => .inr (by
  show decodeScalar _ = _
  unfold decodeScalar; rw [rr_major]
  show decodeInt _ = _
  simp (disch := decide) only [decodeInt, fG, fD, fA, fB, fFn, rr_f, rr_b, rr_a, rr_d, rr_g, slice_all, slice_low, slice_high, pred_top, pred_low, Nat.reduceSub, BitVec.reduceExtractLsb', BitVec.reduceToNat, if_true, and_self])
theorem clz (g : BitVec 3) (d : BitVec 5) (a : BitVec 5) : Statement (.clz g d a) := fun _ => .inr (by
  show decodeScalar _ = _
  unfold decodeScalar; rw [rr_major]
  show decodeInt _ = _
  simp (disch := decide) only [decodeInt, fG, fD, fA, fB, fFn, rr_f, rr_b, rr_a, rr_d, rr_g, slice_all, slice_low, slice_high, pred_top, pred_low, Nat.reduceSub, BitVec.reduceExtractLsb', BitVec.reduceToNat, if_true, and_self])
theorem ctz (g : BitVec 3) (d : BitVec 5) (a : BitVec 5) : Statement (.ctz g d a) := fun _ => .inr (by
  show decodeScalar _ = _
  unfold decodeScalar; rw [rr_major]
  show decodeInt _ = _
  simp (disch := decide) only [decodeInt, fG, fD, fA, fB, fFn, rr_f, rr_b, rr_a, rr_d, rr_g, slice_all, slice_low, slice_high, pred_top, pred_low, Nat.reduceSub, BitVec.reduceExtractLsb', BitVec.reduceToNat, if_true, and_self])
theorem popc (g : BitVec 3) (d : BitVec 5) (a : BitVec 5) : Statement (.popc g d a) := fun _ => .inr (by
  show decodeScalar _ = _
  unfold decodeScalar; rw [rr_major]
  show decodeInt _ = _
  simp (disch := decide) only [decodeInt, fG, fD, fA, fB, fFn, rr_f, rr_b, rr_a, rr_d, rr_g, slice_all, slice_low, slice_high, pred_top, pred_low, Nat.reduceSub, BitVec.reduceExtractLsb', BitVec.reduceToNat, if_true, and_self])
theorem clmul (g : BitVec 3) (d : BitVec 5) (a : BitVec 5) (b : BitVec 5) : Statement (.clmul g d a b) := fun _ => .inr (by
  show decodeScalar _ = _
  unfold decodeScalar; rw [rr_major]
  show decodeInt _ = _
  simp (disch := decide) only [decodeInt, fG, fD, fA, fB, fFn, rr_f, rr_b, rr_a, rr_d, rr_g, slice_all, slice_low, slice_high, pred_top, pred_low, Nat.reduceSub, BitVec.reduceExtractLsb', BitVec.reduceToNat, if_true, and_self])
theorem clmulh (g : BitVec 3) (d : BitVec 5) (a : BitVec 5) (b : BitVec 5) : Statement (.clmulh g d a b) := fun _ => .inr (by
  show decodeScalar _ = _
  unfold decodeScalar; rw [rr_major]
  show decodeInt _ = _
  simp (disch := decide) only [decodeInt, fG, fD, fA, fB, fFn, rr_f, rr_b, rr_a, rr_d, rr_g, slice_all, slice_low, slice_high, pred_top, pred_low, Nat.reduceSub, BitVec.reduceExtractLsb', BitVec.reduceToNat, if_true, and_self])
theorem sh1add (g : BitVec 3) (d : BitVec 5) (a : BitVec 5) (b : BitVec 5) : Statement (.sh1add g d a b) := fun _ => .inr (by
  show decodeScalar _ = _
  unfold decodeScalar; rw [rr_major]
  show decodeInt _ = _
  simp (disch := decide) only [decodeInt, fG, fD, fA, fB, fFn, rr_f, rr_b, rr_a, rr_d, rr_g, slice_all, slice_low, slice_high, pred_top, pred_low, Nat.reduceSub, BitVec.reduceExtractLsb', BitVec.reduceToNat, if_true, and_self])
theorem sh2add (g : BitVec 3) (d : BitVec 5) (a : BitVec 5) (b : BitVec 5) : Statement (.sh2add g d a b) := fun _ => .inr (by
  show decodeScalar _ = _
  unfold decodeScalar; rw [rr_major]
  show decodeInt _ = _
  simp (disch := decide) only [decodeInt, fG, fD, fA, fB, fFn, rr_f, rr_b, rr_a, rr_d, rr_g, slice_all, slice_low, slice_high, pred_top, pred_low, Nat.reduceSub, BitVec.reduceExtractLsb', BitVec.reduceToNat, if_true, and_self])
theorem sh3add (g : BitVec 3) (d : BitVec 5) (a : BitVec 5) (b : BitVec 5) : Statement (.sh3add g d a b) := fun _ => .inr (by
  show decodeScalar _ = _
  unfold decodeScalar; rw [rr_major]
  show decodeInt _ = _
  simp (disch := decide) only [decodeInt, fG, fD, fA, fB, fFn, rr_f, rr_b, rr_a, rr_d, rr_g, slice_all, slice_low, slice_high, pred_top, pred_low, Nat.reduceSub, BitVec.reduceExtractLsb', BitVec.reduceToNat, if_true, and_self])
theorem sh4add (g : BitVec 3) (d : BitVec 5) (a : BitVec 5) (b : BitVec 5) : Statement (.sh4add g d a b) := fun _ => .inr (by
  show decodeScalar _ = _
  unfold decodeScalar; rw [rr_major]
  show decodeInt _ = _
  simp (disch := decide) only [decodeInt, fG, fD, fA, fB, fFn, rr_f, rr_b, rr_a, rr_d, rr_g, slice_all, slice_low, slice_high, pred_top, pred_low, Nat.reduceSub, BitVec.reduceExtractLsb', BitVec.reduceToNat, if_true, and_self])
theorem addi (g : BitVec 3) (d : BitVec 5) (a : BitVec 5) (i : BitVec 12) : Statement (.addi g d a i) := fun _ => .inr (by
  show decodeScalar _ = _
  unfold decodeScalar; rw [ri_major]
  show some _ = some _
  simp (disch := decide) only [fG, fD, fA, fImm12, ri_i, ri_a, ri_d, ri_g, slice_all, slice_low, slice_high, pred_top, pred_low, Nat.reduceSub, BitVec.reduceExtractLsb', BitVec.reduceToNat, if_true, and_self])
theorem muli (g : BitVec 3) (d : BitVec 5) (a : BitVec 5) (i : BitVec 12) : Statement (.muli g d a i) := fun _ => .inr (by
  show decodeScalar _ = _
  unfold decodeScalar; rw [ri_major]
  show some _ = some _
  simp (disch := decide) only [fG, fD, fA, fImm12, ri_i, ri_a, ri_d, ri_g, slice_all, slice_low, slice_high, pred_top, pred_low, Nat.reduceSub, BitVec.reduceExtractLsb', BitVec.reduceToNat, if_true, and_self])
theorem andi (g : BitVec 3) (d : BitVec 5) (a : BitVec 5) (i : BitVec 12) : Statement (.andi g d a i) := fun _ => .inr (by
  show decodeScalar _ = _
  unfold decodeScalar; rw [ri_major]
  show some _ = some _
  simp (disch := decide) only [fG, fD, fA, fImm12, ri_i, ri_a, ri_d, ri_g, slice_all, slice_low, slice_high, pred_top, pred_low, Nat.reduceSub, BitVec.reduceExtractLsb', BitVec.reduceToNat, if_true, and_self])
theorem ori (g : BitVec 3) (d : BitVec 5) (a : BitVec 5) (i : BitVec 12) : Statement (.ori g d a i) := fun _ => .inr (by
  show decodeScalar _ = _
  unfold decodeScalar; rw [ri_major]
  show some _ = some _
  simp (disch := decide) only [fG, fD, fA, fImm12, ri_i, ri_a, ri_d, ri_g, slice_all, slice_low, slice_high, pred_top, pred_low, Nat.reduceSub, BitVec.reduceExtractLsb', BitVec.reduceToNat, if_true, and_self])
theorem xori (g : BitVec 3) (d : BitVec 5) (a : BitVec 5) (i : BitVec 12) : Statement (.xori g d a i) := fun _ => .inr (by
  show decodeScalar _ = _
  unfold decodeScalar; rw [ri_major]
  show some _ = some _
  simp (disch := decide) only [fG, fD, fA, fImm12, ri_i, ri_a, ri_d, ri_g, slice_all, slice_low, slice_high, pred_top, pred_low, Nat.reduceSub, BitVec.reduceExtractLsb', BitVec.reduceToNat, if_true, and_self])
theorem slli (g : BitVec 3) (d : BitVec 5) (a : BitVec 5) (i : BitVec 6) : Statement (.slli g d a i) := fun _ => .inr (by
  show decodeScalar _ = _
  unfold decodeScalar; rw [ri_major]
  show (if _ then some _ else none) = some _
  simp (disch := decide) only [fG, fD, fA, fImm12, ri_i, ri_a, ri_d, ri_g, slice_all, slice_low, slice_high, pred_top, pred_low, Nat.reduceSub, BitVec.reduceExtractLsb', BitVec.reduceToNat, if_true, and_self])
theorem srli (g : BitVec 3) (d : BitVec 5) (a : BitVec 5) (i : BitVec 6) : Statement (.srli g d a i) := fun _ => .inr (by
  show decodeScalar _ = _
  unfold decodeScalar; rw [ri_major]
  show (if _ then some _ else none) = some _
  simp (disch := decide) only [fG, fD, fA, fImm12, ri_i, ri_a, ri_d, ri_g, slice_all, slice_low, slice_high, pred_top, pred_low, Nat.reduceSub, BitVec.reduceExtractLsb', BitVec.reduceToNat, if_true, and_self])
theorem srai (g : BitVec 3) (d : BitVec 5) (a : BitVec 5) (i : BitVec 6) : Statement (.srai g d a i) := fun _ => .inr (by
  show decodeScalar _ = _
  unfold decodeScalar; rw [ri_major]
  show (if _ then some _ else none) = some _
  simp (disch := decide) only [fG, fD, fA, fImm12, ri_i, ri_a, ri_d, ri_g, slice_all, slice_low, slice_high, pred_top, pred_low, Nat.reduceSub, BitVec.reduceExtractLsb', BitVec.reduceToNat, if_true, and_self])
theorem li (g : BitVec 3) (d : BitVec 5) (i : BitVec 17) : Statement (.li g d i) := fun _ => .inr (by
  show decodeScalar _ = _
  unfold decodeScalar; rw [li_major]
  show some _ = some _
  simp (disch := decide) only [fG, fD, fImm17, li_i, li_d, li_g, slice_all, slice_low, slice_high, pred_top, pred_low, Nat.reduceSub, BitVec.reduceExtractLsb', BitVec.reduceToNat, if_true, and_self])
theorem lsi (g : BitVec 3) (d : BitVec 5) (i : BitVec 17) : Statement (.lsi g d i) := fun _ => .inr (by
  show decodeScalar _ = _
  unfold decodeScalar; rw [li_major]
  show some _ = some _
  simp (disch := decide) only [fG, fD, fImm17, li_i, li_d, li_g, slice_all, slice_low, slice_high, pred_top, pred_low, Nat.reduceSub, BitVec.reduceExtractLsb', BitVec.reduceToNat, if_true, and_self])
theorem cmpEq (g : BitVec 3) (p : BitVec 3) (a : BitVec 5) (b : BitVec 5) : Statement (.cmpEq g p a b) := fun _ => .inr (by
  show decodeScalar _ = _
  unfold decodeScalar; rw [rr_major]
  show decodeCmp _ = _
  simp (disch := decide) only [decodeCmp, fG, fD, fA, fB, fFn, rr_f, rr_b, rr_a, rr_d, rr_g, slice_all, slice_low, slice_high, pred_top, pred_low, Nat.reduceSub, BitVec.reduceExtractLsb', BitVec.reduceToNat, if_true, and_self])
theorem cmpNe (g : BitVec 3) (p : BitVec 3) (a : BitVec 5) (b : BitVec 5) : Statement (.cmpNe g p a b) := fun _ => .inr (by
  show decodeScalar _ = _
  unfold decodeScalar; rw [rr_major]
  show decodeCmp _ = _
  simp (disch := decide) only [decodeCmp, fG, fD, fA, fB, fFn, rr_f, rr_b, rr_a, rr_d, rr_g, slice_all, slice_low, slice_high, pred_top, pred_low, Nat.reduceSub, BitVec.reduceExtractLsb', BitVec.reduceToNat, if_true, and_self])
theorem cmpLt (g : BitVec 3) (p : BitVec 3) (a : BitVec 5) (b : BitVec 5) : Statement (.cmpLt g p a b) := fun _ => .inr (by
  show decodeScalar _ = _
  unfold decodeScalar; rw [rr_major]
  show decodeCmp _ = _
  simp (disch := decide) only [decodeCmp, fG, fD, fA, fB, fFn, rr_f, rr_b, rr_a, rr_d, rr_g, slice_all, slice_low, slice_high, pred_top, pred_low, Nat.reduceSub, BitVec.reduceExtractLsb', BitVec.reduceToNat, if_true, and_self])
theorem cmpGe (g : BitVec 3) (p : BitVec 3) (a : BitVec 5) (b : BitVec 5) : Statement (.cmpGe g p a b) := fun _ => .inr (by
  show decodeScalar _ = _
  unfold decodeScalar; rw [rr_major]
  show decodeCmp _ = _
  simp (disch := decide) only [decodeCmp, fG, fD, fA, fB, fFn, rr_f, rr_b, rr_a, rr_d, rr_g, slice_all, slice_low, slice_high, pred_top, pred_low, Nat.reduceSub, BitVec.reduceExtractLsb', BitVec.reduceToNat, if_true, and_self])
theorem cmpLtn (g : BitVec 3) (p : BitVec 3) (a : BitVec 5) (b : BitVec 5) : Statement (.cmpLtn g p a b) := fun _ => .inr (by
  show decodeScalar _ = _
  unfold decodeScalar; rw [rr_major]
  show decodeCmp _ = _
  simp (disch := decide) only [decodeCmp, fG, fD, fA, fB, fFn, rr_f, rr_b, rr_a, rr_d, rr_g, slice_all, slice_low, slice_high, pred_top, pred_low, Nat.reduceSub, BitVec.reduceExtractLsb', BitVec.reduceToNat, if_true, and_self])
theorem cmpGen (g : BitVec 3) (p : BitVec 3) (a : BitVec 5) (b : BitVec 5) : Statement (.cmpGen g p a b) := fun _ => .inr (by
  show decodeScalar _ = _
  unfold decodeScalar; rw [rr_major]
  show decodeCmp _ = _
  simp (disch := decide) only [decodeCmp, fG, fD, fA, fB, fFn, rr_f, rr_b, rr_a, rr_d, rr_g, slice_all, slice_low, slice_high, pred_top, pred_low, Nat.reduceSub, BitVec.reduceExtractLsb', BitVec.reduceToNat, if_true, and_self])
theorem cmpiEq (g : BitVec 3) (p : BitVec 3) (a : BitVec 5) (i : BitVec 12) : Statement (.cmpiEq g p a i) := fun _ => .inr (by
  show decodeScalar _ = _
  unfold decodeScalar; rw [ri_major]
  show (if _ then some _ else none) = some _
  simp (disch := decide) only [fG, fD, fA, fImm12, ri_i, ri_a, ri_d, ri_g, slice_all, slice_low, slice_high, pred_top, pred_low, Nat.reduceSub, BitVec.reduceExtractLsb', BitVec.reduceToNat, if_true, and_self])
theorem cmpiNe (g : BitVec 3) (p : BitVec 3) (a : BitVec 5) (i : BitVec 12) : Statement (.cmpiNe g p a i) := fun _ => .inr (by
  show decodeScalar _ = _
  unfold decodeScalar; rw [ri_major]
  show (if _ then some _ else none) = some _
  simp (disch := decide) only [fG, fD, fA, fImm12, ri_i, ri_a, ri_d, ri_g, slice_all, slice_low, slice_high, pred_top, pred_low, Nat.reduceSub, BitVec.reduceExtractLsb', BitVec.reduceToNat, if_true, and_self])
theorem cmpiLt (g : BitVec 3) (p : BitVec 3) (a : BitVec 5) (i : BitVec 12) : Statement (.cmpiLt g p a i) := fun _ => .inr (by
  show decodeScalar _ = _
  unfold decodeScalar; rw [ri_major]
  show (if _ then some _ else none) = some _
  simp (disch := decide) only [fG, fD, fA, fImm12, ri_i, ri_a, ri_d, ri_g, slice_all, slice_low, slice_high, pred_top, pred_low, Nat.reduceSub, BitVec.reduceExtractLsb', BitVec.reduceToNat, if_true, and_self])
theorem cmpiGe (g : BitVec 3) (p : BitVec 3) (a : BitVec 5) (i : BitVec 12) : Statement (.cmpiGe g p a i) := fun _ => .inr (by
  show decodeScalar _ = _
  unfold decodeScalar; rw [ri_major]
  show (if _ then some _ else none) = some _
  simp (disch := decide) only [fG, fD, fA, fImm12, ri_i, ri_a, ri_d, ri_g, slice_all, slice_low, slice_high, pred_top, pred_low, Nat.reduceSub, BitVec.reduceExtractLsb', BitVec.reduceToNat, if_true, and_self])
theorem cmpiLtn (g : BitVec 3) (p : BitVec 3) (a : BitVec 5) (i : BitVec 12) : Statement (.cmpiLtn g p a i) := fun _ => .inr (by
  show decodeScalar _ = _
  unfold decodeScalar; rw [ri_major]
  show (if _ then some _ else none) = some _
  simp (disch := decide) only [fG, fD, fA, fImm12, ri_i, ri_a, ri_d, ri_g, slice_all, slice_low, slice_high, pred_top, pred_low, Nat.reduceSub, BitVec.reduceExtractLsb', BitVec.reduceToNat, if_true, and_self])
theorem cmpiGen (g : BitVec 3) (p : BitVec 3) (a : BitVec 5) (i : BitVec 12) : Statement (.cmpiGen g p a i) := fun _ => .inr (by
  show decodeScalar _ = _
  unfold decodeScalar; rw [ri_major]
  show (if _ then some _ else none) = some _
  simp (disch := decide) only [fG, fD, fA, fImm12, ri_i, ri_a, ri_d, ri_g, slice_all, slice_low, slice_high, pred_top, pred_low, Nat.reduceSub, BitVec.reduceExtractLsb', BitVec.reduceToNat, if_true, and_self])
theorem pand (g : BitVec 3) (p : BitVec 3) (q : BitVec 3) (r : BitVec 3) : Statement (.pand g p q r) := fun _ => .inr (by
  show decodeScalar _ = _
  unfold decodeScalar; rw [rr_major]
  show decodePred _ = _
  simp (disch := decide) only [decodePred, fG, fD, fA, fB, fFn, rr_f, rr_b, rr_a, rr_d, rr_g, slice_all, slice_low, slice_high, pred_top, pred_low, Nat.reduceSub, BitVec.reduceExtractLsb', BitVec.reduceToNat, if_true, and_self])
theorem por (g : BitVec 3) (p : BitVec 3) (q : BitVec 3) (r : BitVec 3) : Statement (.por g p q r) := fun _ => .inr (by
  show decodeScalar _ = _
  unfold decodeScalar; rw [rr_major]
  show decodePred _ = _
  simp (disch := decide) only [decodePred, fG, fD, fA, fB, fFn, rr_f, rr_b, rr_a, rr_d, rr_g, slice_all, slice_low, slice_high, pred_top, pred_low, Nat.reduceSub, BitVec.reduceExtractLsb', BitVec.reduceToNat, if_true, and_self])
theorem pxor (g : BitVec 3) (p : BitVec 3) (q : BitVec 3) (r : BitVec 3) : Statement (.pxor g p q r) := fun _ => .inr (by
  show decodeScalar _ = _
  unfold decodeScalar; rw [rr_major]
  show decodePred _ = _
  simp (disch := decide) only [decodePred, fG, fD, fA, fB, fFn, rr_f, rr_b, rr_a, rr_d, rr_g, slice_all, slice_low, slice_high, pred_top, pred_low, Nat.reduceSub, BitVec.reduceExtractLsb', BitVec.reduceToNat, if_true, and_self])
theorem pandn (g : BitVec 3) (p : BitVec 3) (q : BitVec 3) (r : BitVec 3) : Statement (.pandn g p q r) := fun _ => .inr (by
  show decodeScalar _ = _
  unfold decodeScalar; rw [rr_major]
  show decodePred _ = _
  simp (disch := decide) only [decodePred, fG, fD, fA, fB, fFn, rr_f, rr_b, rr_a, rr_d, rr_g, slice_all, slice_low, slice_high, pred_top, pred_low, Nat.reduceSub, BitVec.reduceExtractLsb', BitVec.reduceToNat, if_true, and_self])
theorem pnot (g : BitVec 3) (p : BitVec 3) (q : BitVec 3) : Statement (.pnot g p q) := fun _ => .inr (by
  show decodeScalar _ = _
  unfold decodeScalar; rw [rr_major]
  show decodePred _ = _
  simp (disch := decide) only [decodePred, fG, fD, fA, fB, fFn, rr_f, rr_b, rr_a, rr_d, rr_g, slice_all, slice_low, slice_high, pred_top, pred_low, Nat.reduceSub, BitVec.reduceExtractLsb', BitVec.reduceToNat, if_true, and_self])
theorem pset (g : BitVec 3) (p : BitVec 3) (a : BitVec 5) : Statement (.pset g p a) := fun _ => .inr (by
  show decodeScalar _ = _
  unfold decodeScalar; rw [rr_major]
  show decodePred _ = _
  simp (disch := decide) only [decodePred, fG, fD, fA, fB, fFn, rr_f, rr_b, rr_a, rr_d, rr_g, slice_all, slice_low, slice_high, pred_top, pred_low, Nat.reduceSub, BitVec.reduceExtractLsb', BitVec.reduceToNat, if_true, and_self])
theorem pget (g : BitVec 3) (d : BitVec 5) (q : BitVec 3) : Statement (.pget g d q) := fun _ => .inr (by
  show decodeScalar _ = _
  unfold decodeScalar; rw [rr_major]
  show decodePred _ = _
  simp (disch := decide) only [decodePred, fG, fD, fA, fB, fFn, rr_f, rr_b, rr_a, rr_d, rr_g, slice_all, slice_low, slice_high, pred_top, pred_low, Nat.reduceSub, BitVec.reduceExtractLsb', BitVec.reduceToNat, if_true, and_self])
theorem sel (g : BitVec 3) (d : BitVec 5) (a : BitVec 5) (b : BitVec 5) (p : BitVec 3) : Statement (.sel g d a b p) := fun _ => .inr (by
  show decodeScalar _ = _
  unfold decodeScalar; rw [rr_major]
  show decodeSel _ = _
  simp (disch := decide) only [decodeSel, fG, fD, fA, fB, fFn, rr_f, rr_b, rr_a, rr_d, rr_g, slice_all, slice_low, slice_high, pred_top, pred_low, Nat.reduceSub, BitVec.reduceExtractLsb', BitVec.reduceToNat, if_true, and_self])
theorem br (g : BitVec 3) (o : BitVec 22) : Statement (.br g o) := fun _ => .inr (by
  show decodeScalar _ = _
  unfold decodeScalar; rw [br_major]
  show some _ = some _
  simp (disch := decide) only [fG, fOff22, br_o, br_g, slice_all, slice_low, slice_high, pred_top, pred_low, Nat.reduceSub, BitVec.reduceExtractLsb', BitVec.reduceToNat, if_true, and_self])
theorem call (g : BitVec 3) (o : BitVec 22) : Statement (.call g o) := fun _ => .inr (by
  show decodeScalar _ = _
  unfold decodeScalar; rw [br_major]
  show some _ = some _
  simp (disch := decide) only [fG, fOff22, br_o, br_g, slice_all, slice_low, slice_high, pred_top, pred_low, Nat.reduceSub, BitVec.reduceExtractLsb', BitVec.reduceToNat, if_true, and_self])
theorem jr (g : BitVec 3) (a : BitVec 5) : Statement (.jr g a) := fun _ => .inr (by
  show decodeScalar _ = _
  unfold decodeScalar; rw [rr_major]
  show decodeJump _ = _
  simp (disch := decide) only [decodeJump, fG, fD, fA, fB, fFn, rr_f, rr_b, rr_a, rr_d, rr_g, slice_all, slice_low, slice_high, pred_top, pred_low, Nat.reduceSub, BitVec.reduceExtractLsb', BitVec.reduceToNat, if_true, and_self])
theorem callr (g : BitVec 3) (a : BitVec 5) : Statement (.callr g a) := fun _ => .inr (by
  show decodeScalar _ = _
  unfold decodeScalar; rw [rr_major]
  show decodeJump _ = _
  simp (disch := decide) only [decodeJump, fG, fD, fA, fB, fFn, rr_f, rr_b, rr_a, rr_d, rr_g, slice_all, slice_low, slice_high, pred_top, pred_low, Nat.reduceSub, BitVec.reduceExtractLsb', BitVec.reduceToNat, if_true, and_self])
theorem ret (g : BitVec 3) : Statement (.ret g) := fun _ => .inr (by
  show decodeScalar _ = _
  unfold decodeScalar; rw [rr_major]
  show decodeJump _ = _
  simp (disch := decide) only [decodeJump, fG, fD, fA, fB, fFn, rr_f, rr_b, rr_a, rr_d, rr_g, rr_zeros, rr_zeros4, slice_all, slice_low, slice_high, pred_top, pred_low, Nat.reduceSub, BitVec.reduceExtractLsb', BitVec.reduceToNat, if_true, and_self])
theorem detach (g : BitVec 3) : Statement (.detach g) := fun _ => .inr (by
  show decodeScalar _ = _
  unfold decodeScalar; rw [sys_major]
  show decodePrism _ = _
  simp (disch := decide) only [decodePrism, fG, fFn6, fImm16, sys_i, sys_f, sys_g, slice_all, slice_low, slice_high, pred_top, pred_low, Nat.reduceSub, BitVec.reduceExtractLsb', BitVec.reduceToNat, if_true, and_self])
theorem join (g : BitVec 3) (p : BitVec 3) (t : BitVec 13) : Statement (.join g p t) := fun _ => .inr (by
  show decodeScalar _ = _
  unfold decodeScalar; rw [sys_major]
  show decodePrism _ = _
  simp (disch := decide) only [decodePrism, fG, fFn6, fImm16, sys_i, sys_f, sys_g, slice_all, slice_low, slice_high, pred_top, pred_low, Nat.reduceSub, BitVec.reduceExtractLsb', BitVec.reduceToNat, if_true, and_self])
theorem ldI8 (g : BitVec 3) (d : BitVec 5) (a : BitVec 5) (c : BitVec 4) (o : BitVec 8) : Statement (.ldI8 g d a c o) := fun _ => .inr (by
  show decodeScalar _ = _
  unfold decodeScalar; rw [mem_major]
  show some _ = some _
  simp (disch := decide) only [fG, fD, fA, fClass, fOff8, mem_o, mem_c, mem_a, mem_d, mem_g, slice_all, slice_low, slice_high, pred_top, pred_low, Nat.reduceSub, BitVec.reduceExtractLsb', BitVec.reduceToNat, if_true, and_self])
theorem ldN8 (g : BitVec 3) (d : BitVec 5) (a : BitVec 5) (c : BitVec 4) (o : BitVec 8) : Statement (.ldN8 g d a c o) := fun _ => .inr (by
  show decodeScalar _ = _
  unfold decodeScalar; rw [mem_major]
  show some _ = some _
  simp (disch := decide) only [fG, fD, fA, fClass, fOff8, mem_o, mem_c, mem_a, mem_d, mem_g, slice_all, slice_low, slice_high, pred_top, pred_low, Nat.reduceSub, BitVec.reduceExtractLsb', BitVec.reduceToNat, if_true, and_self])
theorem ldI16 (g : BitVec 3) (d : BitVec 5) (a : BitVec 5) (c : BitVec 4) (o : BitVec 8) : Statement (.ldI16 g d a c o) := fun _ => .inr (by
  show decodeScalar _ = _
  unfold decodeScalar; rw [mem_major]
  show some _ = some _
  simp (disch := decide) only [fG, fD, fA, fClass, fOff8, mem_o, mem_c, mem_a, mem_d, mem_g, slice_all, slice_low, slice_high, pred_top, pred_low, Nat.reduceSub, BitVec.reduceExtractLsb', BitVec.reduceToNat, if_true, and_self])
theorem ldN16 (g : BitVec 3) (d : BitVec 5) (a : BitVec 5) (c : BitVec 4) (o : BitVec 8) : Statement (.ldN16 g d a c o) := fun _ => .inr (by
  show decodeScalar _ = _
  unfold decodeScalar; rw [mem_major]
  show some _ = some _
  simp (disch := decide) only [fG, fD, fA, fClass, fOff8, mem_o, mem_c, mem_a, mem_d, mem_g, slice_all, slice_low, slice_high, pred_top, pred_low, Nat.reduceSub, BitVec.reduceExtractLsb', BitVec.reduceToNat, if_true, and_self])
theorem ldI32 (g : BitVec 3) (d : BitVec 5) (a : BitVec 5) (c : BitVec 4) (o : BitVec 8) : Statement (.ldI32 g d a c o) := fun _ => .inr (by
  show decodeScalar _ = _
  unfold decodeScalar; rw [mem_major]
  show some _ = some _
  simp (disch := decide) only [fG, fD, fA, fClass, fOff8, mem_o, mem_c, mem_a, mem_d, mem_g, slice_all, slice_low, slice_high, pred_top, pred_low, Nat.reduceSub, BitVec.reduceExtractLsb', BitVec.reduceToNat, if_true, and_self])
theorem ldN32 (g : BitVec 3) (d : BitVec 5) (a : BitVec 5) (c : BitVec 4) (o : BitVec 8) : Statement (.ldN32 g d a c o) := fun _ => .inr (by
  show decodeScalar _ = _
  unfold decodeScalar; rw [mem_major]
  show some _ = some _
  simp (disch := decide) only [fG, fD, fA, fClass, fOff8, mem_o, mem_c, mem_a, mem_d, mem_g, slice_all, slice_low, slice_high, pred_top, pred_low, Nat.reduceSub, BitVec.reduceExtractLsb', BitVec.reduceToNat, if_true, and_self])
theorem ldN64 (g : BitVec 3) (d : BitVec 5) (a : BitVec 5) (c : BitVec 4) (o : BitVec 8) : Statement (.ldN64 g d a c o) := fun _ => .inr (by
  show decodeScalar _ = _
  unfold decodeScalar; rw [mem_major]
  show some _ = some _
  simp (disch := decide) only [fG, fD, fA, fClass, fOff8, mem_o, mem_c, mem_a, mem_d, mem_g, slice_all, slice_low, slice_high, pred_top, pred_low, Nat.reduceSub, BitVec.reduceExtractLsb', BitVec.reduceToNat, if_true, and_self])
theorem ldI8W (g : BitVec 3) (d : BitVec 5) (a : BitVec 5) (c : BitVec 4) (o : BitVec 8) : Statement (.ldI8W g d a c o) := fun _ => .inr (by
  show decodeScalar _ = _
  unfold decodeScalar; rw [mem_major]
  show some _ = some _
  simp (disch := decide) only [fG, fD, fA, fClass, fOff8, mem_o, mem_c, mem_a, mem_d, mem_g, slice_all, slice_low, slice_high, pred_top, pred_low, Nat.reduceSub, BitVec.reduceExtractLsb', BitVec.reduceToNat, if_true, and_self])
theorem ldN8W (g : BitVec 3) (d : BitVec 5) (a : BitVec 5) (c : BitVec 4) (o : BitVec 8) : Statement (.ldN8W g d a c o) := fun _ => .inr (by
  show decodeScalar _ = _
  unfold decodeScalar; rw [mem_major]
  show some _ = some _
  simp (disch := decide) only [fG, fD, fA, fClass, fOff8, mem_o, mem_c, mem_a, mem_d, mem_g, slice_all, slice_low, slice_high, pred_top, pred_low, Nat.reduceSub, BitVec.reduceExtractLsb', BitVec.reduceToNat, if_true, and_self])
theorem ldI16W (g : BitVec 3) (d : BitVec 5) (a : BitVec 5) (c : BitVec 4) (o : BitVec 8) : Statement (.ldI16W g d a c o) := fun _ => .inr (by
  show decodeScalar _ = _
  unfold decodeScalar; rw [mem_major]
  show some _ = some _
  simp (disch := decide) only [fG, fD, fA, fClass, fOff8, mem_o, mem_c, mem_a, mem_d, mem_g, slice_all, slice_low, slice_high, pred_top, pred_low, Nat.reduceSub, BitVec.reduceExtractLsb', BitVec.reduceToNat, if_true, and_self])
theorem ldN16W (g : BitVec 3) (d : BitVec 5) (a : BitVec 5) (c : BitVec 4) (o : BitVec 8) : Statement (.ldN16W g d a c o) := fun _ => .inr (by
  show decodeScalar _ = _
  unfold decodeScalar; rw [mem_major]
  show some _ = some _
  simp (disch := decide) only [fG, fD, fA, fClass, fOff8, mem_o, mem_c, mem_a, mem_d, mem_g, slice_all, slice_low, slice_high, pred_top, pred_low, Nat.reduceSub, BitVec.reduceExtractLsb', BitVec.reduceToNat, if_true, and_self])
theorem ldI32W (g : BitVec 3) (d : BitVec 5) (a : BitVec 5) (c : BitVec 4) (o : BitVec 8) : Statement (.ldI32W g d a c o) := fun _ => .inr (by
  show decodeScalar _ = _
  unfold decodeScalar; rw [mem_major]
  show some _ = some _
  simp (disch := decide) only [fG, fD, fA, fClass, fOff8, mem_o, mem_c, mem_a, mem_d, mem_g, slice_all, slice_low, slice_high, pred_top, pred_low, Nat.reduceSub, BitVec.reduceExtractLsb', BitVec.reduceToNat, if_true, and_self])
theorem ldN32W (g : BitVec 3) (d : BitVec 5) (a : BitVec 5) (c : BitVec 4) (o : BitVec 8) : Statement (.ldN32W g d a c o) := fun _ => .inr (by
  show decodeScalar _ = _
  unfold decodeScalar; rw [mem_major]
  show some _ = some _
  simp (disch := decide) only [fG, fD, fA, fClass, fOff8, mem_o, mem_c, mem_a, mem_d, mem_g, slice_all, slice_low, slice_high, pred_top, pred_low, Nat.reduceSub, BitVec.reduceExtractLsb', BitVec.reduceToNat, if_true, and_self])
theorem ldN64W (g : BitVec 3) (d : BitVec 5) (a : BitVec 5) (c : BitVec 4) (o : BitVec 8) : Statement (.ldN64W g d a c o) := fun _ => .inr (by
  show decodeScalar _ = _
  unfold decodeScalar; rw [mem_major]
  show some _ = some _
  simp (disch := decide) only [fG, fD, fA, fClass, fOff8, mem_o, mem_c, mem_a, mem_d, mem_g, slice_all, slice_low, slice_high, pred_top, pred_low, Nat.reduceSub, BitVec.reduceExtractLsb', BitVec.reduceToNat, if_true, and_self])
theorem ldI8Wc (g : BitVec 3) (d : BitVec 5) (a : BitVec 5) (c : BitVec 4) (o : BitVec 8) : Statement (.ldI8Wc g d a c o) := fun _ => .inr (by
  show decodeScalar _ = _
  unfold decodeScalar; rw [mem_major]
  show some _ = some _
  simp (disch := decide) only [fG, fD, fA, fClass, fOff8, mem_o, mem_c, mem_a, mem_d, mem_g, slice_all, slice_low, slice_high, pred_top, pred_low, Nat.reduceSub, BitVec.reduceExtractLsb', BitVec.reduceToNat, if_true, and_self])
theorem ldN8Wc (g : BitVec 3) (d : BitVec 5) (a : BitVec 5) (c : BitVec 4) (o : BitVec 8) : Statement (.ldN8Wc g d a c o) := fun _ => .inr (by
  show decodeScalar _ = _
  unfold decodeScalar; rw [mem_major]
  show some _ = some _
  simp (disch := decide) only [fG, fD, fA, fClass, fOff8, mem_o, mem_c, mem_a, mem_d, mem_g, slice_all, slice_low, slice_high, pred_top, pred_low, Nat.reduceSub, BitVec.reduceExtractLsb', BitVec.reduceToNat, if_true, and_self])
theorem ldI16Wc (g : BitVec 3) (d : BitVec 5) (a : BitVec 5) (c : BitVec 4) (o : BitVec 8) : Statement (.ldI16Wc g d a c o) := fun _ => .inr (by
  show decodeScalar _ = _
  unfold decodeScalar; rw [mem_major]
  show some _ = some _
  simp (disch := decide) only [fG, fD, fA, fClass, fOff8, mem_o, mem_c, mem_a, mem_d, mem_g, slice_all, slice_low, slice_high, pred_top, pred_low, Nat.reduceSub, BitVec.reduceExtractLsb', BitVec.reduceToNat, if_true, and_self])
theorem ldN16Wc (g : BitVec 3) (d : BitVec 5) (a : BitVec 5) (c : BitVec 4) (o : BitVec 8) : Statement (.ldN16Wc g d a c o) := fun _ => .inr (by
  show decodeScalar _ = _
  unfold decodeScalar; rw [mem_major]
  show some _ = some _
  simp (disch := decide) only [fG, fD, fA, fClass, fOff8, mem_o, mem_c, mem_a, mem_d, mem_g, slice_all, slice_low, slice_high, pred_top, pred_low, Nat.reduceSub, BitVec.reduceExtractLsb', BitVec.reduceToNat, if_true, and_self])
theorem ldI32Wc (g : BitVec 3) (d : BitVec 5) (a : BitVec 5) (c : BitVec 4) (o : BitVec 8) : Statement (.ldI32Wc g d a c o) := fun _ => .inr (by
  show decodeScalar _ = _
  unfold decodeScalar; rw [mem_major]
  show some _ = some _
  simp (disch := decide) only [fG, fD, fA, fClass, fOff8, mem_o, mem_c, mem_a, mem_d, mem_g, slice_all, slice_low, slice_high, pred_top, pred_low, Nat.reduceSub, BitVec.reduceExtractLsb', BitVec.reduceToNat, if_true, and_self])
theorem ldN32Wc (g : BitVec 3) (d : BitVec 5) (a : BitVec 5) (c : BitVec 4) (o : BitVec 8) : Statement (.ldN32Wc g d a c o) := fun _ => .inr (by
  show decodeScalar _ = _
  unfold decodeScalar; rw [mem_major]
  show some _ = some _
  simp (disch := decide) only [fG, fD, fA, fClass, fOff8, mem_o, mem_c, mem_a, mem_d, mem_g, slice_all, slice_low, slice_high, pred_top, pred_low, Nat.reduceSub, BitVec.reduceExtractLsb', BitVec.reduceToNat, if_true, and_self])
theorem ldN64Wc (g : BitVec 3) (d : BitVec 5) (a : BitVec 5) (c : BitVec 4) (o : BitVec 8) : Statement (.ldN64Wc g d a c o) := fun _ => .inr (by
  show decodeScalar _ = _
  unfold decodeScalar; rw [mem_major]
  show some _ = some _
  simp (disch := decide) only [fG, fD, fA, fClass, fOff8, mem_o, mem_c, mem_a, mem_d, mem_g, slice_all, slice_low, slice_high, pred_top, pred_low, Nat.reduceSub, BitVec.reduceExtractLsb', BitVec.reduceToNat, if_true, and_self])
theorem stN8 (g : BitVec 3) (d : BitVec 5) (a : BitVec 5) (c : BitVec 4) (o : BitVec 8) : Statement (.stN8 g d a c o) := fun _ => .inr (by
  show decodeScalar _ = _
  unfold decodeScalar; rw [mem_major]
  show some _ = some _
  simp (disch := decide) only [fG, fD, fA, fClass, fOff8, mem_o, mem_c, mem_a, mem_d, mem_g, slice_all, slice_low, slice_high, pred_top, pred_low, Nat.reduceSub, BitVec.reduceExtractLsb', BitVec.reduceToNat, if_true, and_self])
theorem stN16 (g : BitVec 3) (d : BitVec 5) (a : BitVec 5) (c : BitVec 4) (o : BitVec 8) : Statement (.stN16 g d a c o) := fun _ => .inr (by
  show decodeScalar _ = _
  unfold decodeScalar; rw [mem_major]
  show some _ = some _
  simp (disch := decide) only [fG, fD, fA, fClass, fOff8, mem_o, mem_c, mem_a, mem_d, mem_g, slice_all, slice_low, slice_high, pred_top, pred_low, Nat.reduceSub, BitVec.reduceExtractLsb', BitVec.reduceToNat, if_true, and_self])
theorem stN32 (g : BitVec 3) (d : BitVec 5) (a : BitVec 5) (c : BitVec 4) (o : BitVec 8) : Statement (.stN32 g d a c o) := fun _ => .inr (by
  show decodeScalar _ = _
  unfold decodeScalar; rw [mem_major]
  show some _ = some _
  simp (disch := decide) only [fG, fD, fA, fClass, fOff8, mem_o, mem_c, mem_a, mem_d, mem_g, slice_all, slice_low, slice_high, pred_top, pred_low, Nat.reduceSub, BitVec.reduceExtractLsb', BitVec.reduceToNat, if_true, and_self])
theorem stN64 (g : BitVec 3) (d : BitVec 5) (a : BitVec 5) (c : BitVec 4) (o : BitVec 8) : Statement (.stN64 g d a c o) := fun _ => .inr (by
  show decodeScalar _ = _
  unfold decodeScalar; rw [mem_major]
  show some _ = some _
  simp (disch := decide) only [fG, fD, fA, fClass, fOff8, mem_o, mem_c, mem_a, mem_d, mem_g, slice_all, slice_low, slice_high, pred_top, pred_low, Nat.reduceSub, BitVec.reduceExtractLsb', BitVec.reduceToNat, if_true, and_self])
theorem stN8Set (g : BitVec 3) (d : BitVec 5) (a : BitVec 5) (c : BitVec 4) (o : BitVec 8) : Statement (.stN8Set g d a c o) := fun _ => .inr (by
  show decodeScalar _ = _
  unfold decodeScalar; rw [mem_major]
  show some _ = some _
  simp (disch := decide) only [fG, fD, fA, fClass, fOff8, mem_o, mem_c, mem_a, mem_d, mem_g, slice_all, slice_low, slice_high, pred_top, pred_low, Nat.reduceSub, BitVec.reduceExtractLsb', BitVec.reduceToNat, if_true, and_self])
theorem stN16Set (g : BitVec 3) (d : BitVec 5) (a : BitVec 5) (c : BitVec 4) (o : BitVec 8) : Statement (.stN16Set g d a c o) := fun _ => .inr (by
  show decodeScalar _ = _
  unfold decodeScalar; rw [mem_major]
  show some _ = some _
  simp (disch := decide) only [fG, fD, fA, fClass, fOff8, mem_o, mem_c, mem_a, mem_d, mem_g, slice_all, slice_low, slice_high, pred_top, pred_low, Nat.reduceSub, BitVec.reduceExtractLsb', BitVec.reduceToNat, if_true, and_self])
theorem stN32Set (g : BitVec 3) (d : BitVec 5) (a : BitVec 5) (c : BitVec 4) (o : BitVec 8) : Statement (.stN32Set g d a c o) := fun _ => .inr (by
  show decodeScalar _ = _
  unfold decodeScalar; rw [mem_major]
  show some _ = some _
  simp (disch := decide) only [fG, fD, fA, fClass, fOff8, mem_o, mem_c, mem_a, mem_d, mem_g, slice_all, slice_low, slice_high, pred_top, pred_low, Nat.reduceSub, BitVec.reduceExtractLsb', BitVec.reduceToNat, if_true, and_self])
theorem stN64Set (g : BitVec 3) (d : BitVec 5) (a : BitVec 5) (c : BitVec 4) (o : BitVec 8) : Statement (.stN64Set g d a c o) := fun _ => .inr (by
  show decodeScalar _ = _
  unfold decodeScalar; rw [mem_major]
  show some _ = some _
  simp (disch := decide) only [fG, fD, fA, fClass, fOff8, mem_o, mem_c, mem_a, mem_d, mem_g, slice_all, slice_low, slice_high, pred_top, pred_low, Nat.reduceSub, BitVec.reduceExtractLsb', BitVec.reduceToNat, if_true, and_self])
theorem stN8Clr (g : BitVec 3) (d : BitVec 5) (a : BitVec 5) (c : BitVec 4) (o : BitVec 8) : Statement (.stN8Clr g d a c o) := fun _ => .inr (by
  show decodeScalar _ = _
  unfold decodeScalar; rw [mem_major]
  show some _ = some _
  simp (disch := decide) only [fG, fD, fA, fClass, fOff8, mem_o, mem_c, mem_a, mem_d, mem_g, slice_all, slice_low, slice_high, pred_top, pred_low, Nat.reduceSub, BitVec.reduceExtractLsb', BitVec.reduceToNat, if_true, and_self])
theorem stN16Clr (g : BitVec 3) (d : BitVec 5) (a : BitVec 5) (c : BitVec 4) (o : BitVec 8) : Statement (.stN16Clr g d a c o) := fun _ => .inr (by
  show decodeScalar _ = _
  unfold decodeScalar; rw [mem_major]
  show some _ = some _
  simp (disch := decide) only [fG, fD, fA, fClass, fOff8, mem_o, mem_c, mem_a, mem_d, mem_g, slice_all, slice_low, slice_high, pred_top, pred_low, Nat.reduceSub, BitVec.reduceExtractLsb', BitVec.reduceToNat, if_true, and_self])
theorem stN32Clr (g : BitVec 3) (d : BitVec 5) (a : BitVec 5) (c : BitVec 4) (o : BitVec 8) : Statement (.stN32Clr g d a c o) := fun _ => .inr (by
  show decodeScalar _ = _
  unfold decodeScalar; rw [mem_major]
  show some _ = some _
  simp (disch := decide) only [fG, fD, fA, fClass, fOff8, mem_o, mem_c, mem_a, mem_d, mem_g, slice_all, slice_low, slice_high, pred_top, pred_low, Nat.reduceSub, BitVec.reduceExtractLsb', BitVec.reduceToNat, if_true, and_self])
theorem stN64Clr (g : BitVec 3) (d : BitVec 5) (a : BitVec 5) (c : BitVec 4) (o : BitVec 8) : Statement (.stN64Clr g d a c o) := fun _ => .inr (by
  show decodeScalar _ = _
  unfold decodeScalar; rw [mem_major]
  show some _ = some _
  simp (disch := decide) only [fG, fD, fA, fClass, fOff8, mem_o, mem_c, mem_a, mem_d, mem_g, slice_all, slice_low, slice_high, pred_top, pred_low, Nat.reduceSub, BitVec.reduceExtractLsb', BitVec.reduceToNat, if_true, and_self])
theorem aldN32 (g : BitVec 3) (d : BitVec 5) (a : BitVec 5) (c : BitVec 4) (o : BitVec 8) : Statement (.aldN32 g d a c o) := fun _ => .inr (by
  show decodeScalar _ = _
  unfold decodeScalar; rw [mem_major]
  show some _ = some _
  simp (disch := decide) only [fG, fD, fA, fClass, fOff8, mem_o, mem_c, mem_a, mem_d, mem_g, slice_all, slice_low, slice_high, pred_top, pred_low, Nat.reduceSub, BitVec.reduceExtractLsb', BitVec.reduceToNat, if_true, and_self])
theorem aldN64 (g : BitVec 3) (d : BitVec 5) (a : BitVec 5) (c : BitVec 4) (o : BitVec 8) : Statement (.aldN64 g d a c o) := fun _ => .inr (by
  show decodeScalar _ = _
  unfold decodeScalar; rw [mem_major]
  show some _ = some _
  simp (disch := decide) only [fG, fD, fA, fClass, fOff8, mem_o, mem_c, mem_a, mem_d, mem_g, slice_all, slice_low, slice_high, pred_top, pred_low, Nat.reduceSub, BitVec.reduceExtractLsb', BitVec.reduceToNat, if_true, and_self])
theorem astN32 (g : BitVec 3) (d : BitVec 5) (a : BitVec 5) (c : BitVec 4) (o : BitVec 8) : Statement (.astN32 g d a c o) := fun _ => .inr (by
  show decodeScalar _ = _
  unfold decodeScalar; rw [mem_major]
  show some _ = some _
  simp (disch := decide) only [fG, fD, fA, fClass, fOff8, mem_o, mem_c, mem_a, mem_d, mem_g, slice_all, slice_low, slice_high, pred_top, pred_low, Nat.reduceSub, BitVec.reduceExtractLsb', BitVec.reduceToNat, if_true, and_self])
theorem astN64 (g : BitVec 3) (d : BitVec 5) (a : BitVec 5) (c : BitVec 4) (o : BitVec 8) : Statement (.astN64 g d a c o) := fun _ => .inr (by
  show decodeScalar _ = _
  unfold decodeScalar; rw [mem_major]
  show some _ = some _
  simp (disch := decide) only [fG, fD, fA, fClass, fOff8, mem_o, mem_c, mem_a, mem_d, mem_g, slice_all, slice_low, slice_high, pred_top, pred_low, Nat.reduceSub, BitVec.reduceExtractLsb', BitVec.reduceToNat, if_true, and_self])
theorem aaddN32 (g : BitVec 3) (d : BitVec 5) (a : BitVec 5) (b : BitVec 5) (c : BitVec 4) : Statement (.aaddN32 g d a b c) := fun _ => .inr (by
  show decodeScalar _ = _
  unfold decodeScalar; rw [rr_major]
  show decodeAtomic32 _ = _
  simp (disch := decide) only [decodeAtomic32, fG, fD, fA, fB, fFn, rr_f, rr_b, rr_a, rr_d, rr_g, slice_all, slice_low, slice_high, pred_top, pred_low, Nat.reduceSub, BitVec.reduceExtractLsb', BitVec.reduceToNat, if_true, and_self])
theorem aswpN32 (g : BitVec 3) (d : BitVec 5) (a : BitVec 5) (b : BitVec 5) (c : BitVec 4) : Statement (.aswpN32 g d a b c) := fun _ => .inr (by
  show decodeScalar _ = _
  unfold decodeScalar; rw [rr_major]
  show decodeAtomic32 _ = _
  simp (disch := decide) only [decodeAtomic32, fG, fD, fA, fB, fFn, rr_f, rr_b, rr_a, rr_d, rr_g, slice_all, slice_low, slice_high, pred_top, pred_low, Nat.reduceSub, BitVec.reduceExtractLsb', BitVec.reduceToNat, if_true, and_self])
theorem amaxI32 (g : BitVec 3) (d : BitVec 5) (a : BitVec 5) (b : BitVec 5) (c : BitVec 4) : Statement (.amaxI32 g d a b c) := fun _ => .inr (by
  show decodeScalar _ = _
  unfold decodeScalar; rw [rr_major]
  show decodeAtomic32 _ = _
  simp (disch := decide) only [decodeAtomic32, fG, fD, fA, fB, fFn, rr_f, rr_b, rr_a, rr_d, rr_g, slice_all, slice_low, slice_high, pred_top, pred_low, Nat.reduceSub, BitVec.reduceExtractLsb', BitVec.reduceToNat, if_true, and_self])
theorem amaxN32 (g : BitVec 3) (d : BitVec 5) (a : BitVec 5) (b : BitVec 5) (c : BitVec 4) : Statement (.amaxN32 g d a b c) := fun _ => .inr (by
  show decodeScalar _ = _
  unfold decodeScalar; rw [rr_major]
  show decodeAtomic32 _ = _
  simp (disch := decide) only [decodeAtomic32, fG, fD, fA, fB, fFn, rr_f, rr_b, rr_a, rr_d, rr_g, slice_all, slice_low, slice_high, pred_top, pred_low, Nat.reduceSub, BitVec.reduceExtractLsb', BitVec.reduceToNat, if_true, and_self])
theorem aminI32 (g : BitVec 3) (d : BitVec 5) (a : BitVec 5) (b : BitVec 5) (c : BitVec 4) : Statement (.aminI32 g d a b c) := fun _ => .inr (by
  show decodeScalar _ = _
  unfold decodeScalar; rw [rr_major]
  show decodeAtomic32 _ = _
  simp (disch := decide) only [decodeAtomic32, fG, fD, fA, fB, fFn, rr_f, rr_b, rr_a, rr_d, rr_g, slice_all, slice_low, slice_high, pred_top, pred_low, Nat.reduceSub, BitVec.reduceExtractLsb', BitVec.reduceToNat, if_true, and_self])
theorem aminN32 (g : BitVec 3) (d : BitVec 5) (a : BitVec 5) (b : BitVec 5) (c : BitVec 4) : Statement (.aminN32 g d a b c) := fun _ => .inr (by
  show decodeScalar _ = _
  unfold decodeScalar; rw [rr_major]
  show decodeAtomic32 _ = _
  simp (disch := decide) only [decodeAtomic32, fG, fD, fA, fB, fFn, rr_f, rr_b, rr_a, rr_d, rr_g, slice_all, slice_low, slice_high, pred_top, pred_low, Nat.reduceSub, BitVec.reduceExtractLsb', BitVec.reduceToNat, if_true, and_self])
theorem aorN32 (g : BitVec 3) (d : BitVec 5) (a : BitVec 5) (b : BitVec 5) (c : BitVec 4) : Statement (.aorN32 g d a b c) := fun _ => .inr (by
  show decodeScalar _ = _
  unfold decodeScalar; rw [rr_major]
  show decodeAtomic32 _ = _
  simp (disch := decide) only [decodeAtomic32, fG, fD, fA, fB, fFn, rr_f, rr_b, rr_a, rr_d, rr_g, slice_all, slice_low, slice_high, pred_top, pred_low, Nat.reduceSub, BitVec.reduceExtractLsb', BitVec.reduceToNat, if_true, and_self])
theorem acasN32 (g : BitVec 3) (d : BitVec 5) (a : BitVec 5) (b : BitVec 5) (c : BitVec 4) : Statement (.acasN32 g d a b c) := fun _ => .inr (by
  show decodeScalar _ = _
  unfold decodeScalar; rw [rr_major]
  show decodeAtomic32 _ = _
  simp (disch := decide) only [decodeAtomic32, fG, fD, fA, fB, fFn, rr_f, rr_b, rr_a, rr_d, rr_g, slice_all, slice_low, slice_high, pred_top, pred_low, Nat.reduceSub, BitVec.reduceExtractLsb', BitVec.reduceToNat, if_true, and_self])
theorem aaddN64 (g : BitVec 3) (d : BitVec 5) (a : BitVec 5) (b : BitVec 5) (c : BitVec 4) : Statement (.aaddN64 g d a b c) := fun _ => .inr (by
  show decodeScalar _ = _
  unfold decodeScalar; rw [rr_major]
  show decodeAtomic64 _ = _
  simp (disch := decide) only [decodeAtomic64, fG, fD, fA, fB, fFn, rr_f, rr_b, rr_a, rr_d, rr_g, slice_all, slice_low, slice_high, pred_top, pred_low, Nat.reduceSub, BitVec.reduceExtractLsb', BitVec.reduceToNat, if_true, and_self])
theorem aswpN64 (g : BitVec 3) (d : BitVec 5) (a : BitVec 5) (b : BitVec 5) (c : BitVec 4) : Statement (.aswpN64 g d a b c) := fun _ => .inr (by
  show decodeScalar _ = _
  unfold decodeScalar; rw [rr_major]
  show decodeAtomic64 _ = _
  simp (disch := decide) only [decodeAtomic64, fG, fD, fA, fB, fFn, rr_f, rr_b, rr_a, rr_d, rr_g, slice_all, slice_low, slice_high, pred_top, pred_low, Nat.reduceSub, BitVec.reduceExtractLsb', BitVec.reduceToNat, if_true, and_self])
theorem amaxI64 (g : BitVec 3) (d : BitVec 5) (a : BitVec 5) (b : BitVec 5) (c : BitVec 4) : Statement (.amaxI64 g d a b c) := fun _ => .inr (by
  show decodeScalar _ = _
  unfold decodeScalar; rw [rr_major]
  show decodeAtomic64 _ = _
  simp (disch := decide) only [decodeAtomic64, fG, fD, fA, fB, fFn, rr_f, rr_b, rr_a, rr_d, rr_g, slice_all, slice_low, slice_high, pred_top, pred_low, Nat.reduceSub, BitVec.reduceExtractLsb', BitVec.reduceToNat, if_true, and_self])
theorem amaxN64 (g : BitVec 3) (d : BitVec 5) (a : BitVec 5) (b : BitVec 5) (c : BitVec 4) : Statement (.amaxN64 g d a b c) := fun _ => .inr (by
  show decodeScalar _ = _
  unfold decodeScalar; rw [rr_major]
  show decodeAtomic64 _ = _
  simp (disch := decide) only [decodeAtomic64, fG, fD, fA, fB, fFn, rr_f, rr_b, rr_a, rr_d, rr_g, slice_all, slice_low, slice_high, pred_top, pred_low, Nat.reduceSub, BitVec.reduceExtractLsb', BitVec.reduceToNat, if_true, and_self])
theorem aminI64 (g : BitVec 3) (d : BitVec 5) (a : BitVec 5) (b : BitVec 5) (c : BitVec 4) : Statement (.aminI64 g d a b c) := fun _ => .inr (by
  show decodeScalar _ = _
  unfold decodeScalar; rw [rr_major]
  show decodeAtomic64 _ = _
  simp (disch := decide) only [decodeAtomic64, fG, fD, fA, fB, fFn, rr_f, rr_b, rr_a, rr_d, rr_g, slice_all, slice_low, slice_high, pred_top, pred_low, Nat.reduceSub, BitVec.reduceExtractLsb', BitVec.reduceToNat, if_true, and_self])
theorem aminN64 (g : BitVec 3) (d : BitVec 5) (a : BitVec 5) (b : BitVec 5) (c : BitVec 4) : Statement (.aminN64 g d a b c) := fun _ => .inr (by
  show decodeScalar _ = _
  unfold decodeScalar; rw [rr_major]
  show decodeAtomic64 _ = _
  simp (disch := decide) only [decodeAtomic64, fG, fD, fA, fB, fFn, rr_f, rr_b, rr_a, rr_d, rr_g, slice_all, slice_low, slice_high, pred_top, pred_low, Nat.reduceSub, BitVec.reduceExtractLsb', BitVec.reduceToNat, if_true, and_self])
theorem aorN64 (g : BitVec 3) (d : BitVec 5) (a : BitVec 5) (b : BitVec 5) (c : BitVec 4) : Statement (.aorN64 g d a b c) := fun _ => .inr (by
  show decodeScalar _ = _
  unfold decodeScalar; rw [rr_major]
  show decodeAtomic64 _ = _
  simp (disch := decide) only [decodeAtomic64, fG, fD, fA, fB, fFn, rr_f, rr_b, rr_a, rr_d, rr_g, slice_all, slice_low, slice_high, pred_top, pred_low, Nat.reduceSub, BitVec.reduceExtractLsb', BitVec.reduceToNat, if_true, and_self])
theorem acasN64 (g : BitVec 3) (d : BitVec 5) (a : BitVec 5) (b : BitVec 5) (c : BitVec 4) : Statement (.acasN64 g d a b c) := fun _ => .inr (by
  show decodeScalar _ = _
  unfold decodeScalar; rw [rr_major]
  show decodeAtomic64 _ = _
  simp (disch := decide) only [decodeAtomic64, fG, fD, fA, fB, fFn, rr_f, rr_b, rr_a, rr_d, rr_g, slice_all, slice_low, slice_high, pred_top, pred_low, Nat.reduceSub, BitVec.reduceExtractLsb', BitVec.reduceToNat, if_true, and_self])
theorem fence (g : BitVec 3) (s : BitVec 3) (m : BitVec 16) : Statement (.fence g s m) := fun _ => .inr (by
  show decodeScalar _ = _
  unfold decodeScalar; rw [sys_major]
  show (if _ then some _ else none) = some _
  simp (disch := decide) only [fG, fFn6, fImm16, sys_i, sys_f, sys_g, slice_all, slice_low, slice_high, pred_top, pred_low, Nat.reduceSub, BitVec.reduceExtractLsb', BitVec.reduceToNat, if_true, and_self])
theorem fork (g : BitVec 3) (e : BitVec 6) : Statement (.fork g e) := fun _ => .inr (by
  show decodeScalar _ = _
  unfold decodeScalar; rw [sys_major]
  show decodeEngCtl _ = _
  simp (disch := decide) only [decodeEngCtl, fG, fFn6, fImm16, sys_i, sys_f, sys_g, slice_all, slice_low, slice_high, pred_top, pred_low, Nat.reduceSub, BitVec.reduceExtractLsb', BitVec.reduceToNat, if_true, and_self])
theorem rdv (g : BitVec 3) (e : BitVec 6) : Statement (.rdv g e) := fun _ => .inr (by
  show decodeScalar _ = _
  unfold decodeScalar; rw [sys_major]
  show decodeEngCtl _ = _
  simp (disch := decide) only [decodeEngCtl, fG, fFn6, fImm16, sys_i, sys_f, sys_g, slice_all, slice_low, slice_high, pred_top, pred_low, Nat.reduceSub, BitVec.reduceExtractLsb', BitVec.reduceToNat, if_true, and_self])
theorem tksig (g : BitVec 3) (e : BitVec 3) : Statement (.tksig g e) := fun _ => .inr (by
  show decodeScalar _ = _
  unfold decodeScalar; rw [sys_major]
  show decodeEngCtl _ = _
  simp (disch := decide) only [decodeEngCtl, fG, fFn6, fImm16, sys_i, sys_f, sys_g, slice_all, slice_low, slice_high, pred_top, pred_low, Nat.reduceSub, BitVec.reduceExtractLsb', BitVec.reduceToNat, if_true, and_self])
theorem tkwait (g : BitVec 3) (e : BitVec 3) : Statement (.tkwait g e) := fun _ => .inr (by
  show decodeScalar _ = _
  unfold decodeScalar; rw [sys_major]
  show decodeEngCtl _ = _
  simp (disch := decide) only [decodeEngCtl, fG, fFn6, fImm16, sys_i, sys_f, sys_g, slice_all, slice_low, slice_high, pred_top, pred_low, Nat.reduceSub, BitVec.reduceExtractLsb', BitVec.reduceToNat, if_true, and_self])
theorem enq (g : BitVec 3) (e : BitVec 5) (b : BitVec 5) : Statement (.enq g e b) := fun h => .inr (by
  have h2 : 1 ≤ e.toNat ∧ e.toNat ≤ 6 := by simpa [Instr.wf] using h
  show decodeScalar _ = _
  unfold decodeScalar; rw [rr_major]
  show decodeEngine _ = _
  simp (disch := decide) only [decodeEngine, fG, fD, fA, fB, fFn, rr_f, rr_b, rr_a, rr_d, rr_g, slice_all, slice_low, slice_high, pred_top, pred_low, Nat.reduceSub, BitVec.reduceExtractLsb', BitVec.reduceToNat, if_true, and_self, h2])
theorem ksend (g : BitVec 3) (k : BitVec 4) (b : BitVec 5) : Statement (.ksend g k b) := fun _ => .inr (by
  show decodeScalar _ = _
  unfold decodeScalar; rw [rr_major]
  show decodeEngine _ = _
  simp (disch := decide) only [decodeEngine, fG, fD, fA, fB, fFn, rr_f, rr_b, rr_a, rr_d, rr_g, slice_all, slice_low, slice_high, pred_top, pred_low, Nat.reduceSub, BitVec.reduceExtractLsb', BitVec.reduceToNat, if_true, and_self])
theorem ipop (g : BitVec 3) (d : BitVec 5) (a : BitVec 5) : Statement (.ipop g d a) := fun _ => .inr (by
  show decodeScalar _ = _
  unfold decodeScalar; rw [rr_major]
  show decodeEngine _ = _
  simp (disch := decide) only [decodeEngine, fG, fD, fA, fB, fFn, rr_f, rr_b, rr_a, rr_d, rr_g, slice_all, slice_low, slice_high, pred_top, pred_low, Nat.reduceSub, BitVec.reduceExtractLsb', BitVec.reduceToNat, if_true, and_self])
theorem hset (g : BitVec 3) (d : BitVec 5) (a : BitVec 5) (b : BitVec 5) : Statement (.hset g d a b) := fun _ => .inr (by
  show decodeScalar _ = _
  unfold decodeScalar; rw [rr_major]
  show decodeObject _ = _
  simp (disch := decide) only [decodeObject, fG, fD, fA, fB, fFn, rr_f, rr_b, rr_a, rr_d, rr_g, slice_all, slice_low, slice_high, pred_top, pred_low, Nat.reduceSub, BitVec.reduceExtractLsb', BitVec.reduceToNat, if_true, and_self])
theorem hfree (g : BitVec 3) (a : BitVec 5) : Statement (.hfree g a) := fun _ => .inr (by
  show decodeScalar _ = _
  unfold decodeScalar; rw [rr_major]
  show decodeObject _ = _
  simp (disch := decide) only [decodeObject, fG, fD, fA, fB, fFn, rr_f, rr_b, rr_a, rr_d, rr_g, slice_all, slice_low, slice_high, pred_top, pred_low, Nat.reduceSub, BitVec.reduceExtractLsb', BitVec.reduceToNat, if_true, and_self])
theorem hget (g : BitVec 3) (d : BitVec 5) (a : BitVec 5) (b : BitVec 5) : Statement (.hget g d a b) := fun _ => .inr (by
  show decodeScalar _ = _
  unfold decodeScalar; rw [rr_major]
  show decodeObject _ = _
  simp (disch := decide) only [decodeObject, fG, fD, fA, fB, fFn, rr_f, rr_b, rr_a, rr_d, rr_g, slice_all, slice_low, slice_high, pred_top, pred_low, Nat.reduceSub, BitVec.reduceExtractLsb', BitVec.reduceToNat, if_true, and_self])
theorem bexp (g : BitVec 3) (a : BitVec 5) (b : BitVec 5) : Statement (.bexp g a b) := fun _ => .inr (by
  show decodeScalar _ = _
  unfold decodeScalar; rw [rr_major]
  show decodeObject _ = _
  simp (disch := decide) only [decodeObject, fG, fD, fA, fB, fFn, rr_f, rr_b, rr_a, rr_d, rr_g, slice_all, slice_low, slice_high, pred_top, pred_low, Nat.reduceSub, BitVec.reduceExtractLsb', BitVec.reduceToNat, if_true, and_self])
theorem barr (g : BitVec 3) (d : BitVec 5) (a : BitVec 5) : Statement (.barr g d a) := fun _ => .inr (by
  show decodeScalar _ = _
  unfold decodeScalar; rw [rr_major]
  show decodeObject _ = _
  simp (disch := decide) only [decodeObject, fG, fD, fA, fB, fFn, rr_f, rr_b, rr_a, rr_d, rr_g, slice_all, slice_low, slice_high, pred_top, pred_low, Nat.reduceSub, BitVec.reduceExtractLsb', BitVec.reduceToNat, if_true, and_self])
theorem bwait (g : BitVec 3) (a : BitVec 5) (b : BitVec 5) : Statement (.bwait g a b) := fun _ => .inr (by
  show decodeScalar _ = _
  unfold decodeScalar; rw [rr_major]
  show decodeObject _ = _
  simp (disch := decide) only [decodeObject, fG, fD, fA, fB, fFn, rr_f, rr_b, rr_a, rr_d, rr_g, slice_all, slice_low, slice_high, pred_top, pred_low, Nat.reduceSub, BitVec.reduceExtractLsb', BitVec.reduceToNat, if_true, and_self])
theorem bmset (g : BitVec 3) (d : BitVec 5) (a : BitVec 5) (b : BitVec 5) : Statement (.bmset g d a b) := fun _ => .inr (by
  show decodeScalar _ = _
  unfold decodeScalar; rw [rr_major]
  show decodeObject _ = _
  simp (disch := decide) only [decodeObject, fG, fD, fA, fB, fFn, rr_f, rr_b, rr_a, rr_d, rr_g, slice_all, slice_low, slice_high, pred_top, pred_low, Nat.reduceSub, BitVec.reduceExtractLsb', BitVec.reduceToNat, if_true, and_self])
theorem bmcopy (g : BitVec 3) (d : BitVec 5) (a : BitVec 5) (b : BitVec 5) : Statement (.bmcopy g d a b) := fun _ => .inr (by
  show decodeScalar _ = _
  unfold decodeScalar; rw [rr_major]
  show decodeObject _ = _
  simp (disch := decide) only [decodeObject, fG, fD, fA, fB, fFn, rr_f, rr_b, rr_a, rr_d, rr_g, slice_all, slice_low, slice_high, pred_top, pred_low, Nat.reduceSub, BitVec.reduceExtractLsb', BitVec.reduceToNat, if_true, and_self])
theorem dwait (g : BitVec 3) (d : BitVec 5) (p : BitVec 3) : Statement (.dwait g d p) := fun _ => .inr (by
  show decodeScalar _ = _
  unfold decodeScalar; rw [rr_major]
  show decodeWork _ = _
  simp (disch := decide) only [decodeWork, fG, fD, fA, fB, fFn, rr_f, rr_b, rr_a, rr_d, rr_g, slice_all, slice_low, slice_high, pred_top, pred_low, Nat.reduceSub, BitVec.reduceExtractLsb', BitVec.reduceToNat, if_true, and_self])
theorem trig (g : BitVec 3) : Statement (.trig g) := fun _ => .inr (by
  show decodeScalar _ = _
  unfold decodeScalar; rw [rr_major]
  show decodeWork _ = _
  simp (disch := decide) only [decodeWork, fG, fD, fA, fB, fFn, rr_f, rr_b, rr_a, rr_d, rr_g, rr_zeros, rr_zeros4, slice_all, slice_low, slice_high, pred_top, pred_low, Nat.reduceSub, BitVec.reduceExtractLsb', BitVec.reduceToNat, if_true, and_self])
theorem rtnew (g : BitVec 3) (d : BitVec 5) (a : BitVec 5) (b : BitVec 5) : Statement (.rtnew g d a b) := fun _ => .inr (by
  show decodeScalar _ = _
  unfold decodeScalar; rw [rr_major]
  show decodeWork _ = _
  simp (disch := decide) only [decodeWork, fG, fD, fA, fB, fFn, rr_f, rr_b, rr_a, rr_d, rr_g, slice_all, slice_low, slice_high, pred_top, pred_low, Nat.reduceSub, BitVec.reduceExtractLsb', BitVec.reduceToNat, if_true, and_self])
theorem rtclaim (g : BitVec 3) (d : BitVec 5) (a : BitVec 5) (p : BitVec 3) : Statement (.rtclaim g d a p) := fun _ => .inr (by
  show decodeScalar _ = _
  unfold decodeScalar; rw [rr_major]
  show decodeWork _ = _
  simp (disch := decide) only [decodeWork, fG, fD, fA, fB, fFn, rr_f, rr_b, rr_a, rr_d, rr_g, slice_all, slice_low, slice_high, pred_top, pred_low, Nat.reduceSub, BitVec.reduceExtractLsb', BitVec.reduceToNat, if_true, and_self])
theorem done (g : BitVec 3) (a : BitVec 5) : Statement (.done g a) := fun _ => .inr (by
  show decodeScalar _ = _
  unfold decodeScalar; rw [rr_major]
  show decodeWork _ = _
  simp (disch := decide) only [decodeWork, fG, fD, fA, fB, fFn, rr_f, rr_b, rr_a, rr_d, rr_g, slice_all, slice_low, slice_high, pred_top, pred_low, Nat.reduceSub, BitVec.reduceExtractLsb', BitVec.reduceToNat, if_true, and_self])
theorem tmsg (g : BitVec 3) (a : BitVec 5) (b : BitVec 5) : Statement (.tmsg g a b) := fun _ => .inr (by
  show decodeScalar _ = _
  unfold decodeScalar; rw [rr_major]
  show decodeWork _ = _
  simp (disch := decide) only [decodeWork, fG, fD, fA, fB, fFn, rr_f, rr_b, rr_a, rr_d, rr_g, slice_all, slice_low, slice_high, pred_top, pred_low, Nat.reduceSub, BitVec.reduceExtractLsb', BitVec.reduceToNat, if_true, and_self])
theorem trecv (g : BitVec 3) (d : BitVec 5) (a : BitVec 5) (p : BitVec 3) : Statement (.trecv g d a p) := fun _ => .inr (by
  show decodeScalar _ = _
  unfold decodeScalar; rw [rr_major]
  show decodeWork _ = _
  simp (disch := decide) only [decodeWork, fG, fD, fA, fB, fFn, rr_f, rr_b, rr_a, rr_d, rr_g, slice_all, slice_low, slice_high, pred_top, pred_low, Nat.reduceSub, BitVec.reduceExtractLsb', BitVec.reduceToNat, if_true, and_self])
theorem pput (g : BitVec 3) (d : BitVec 5) (a : BitVec 5) (b : BitVec 5) : Statement (.pput g d a b) := fun _ => .inr (by
  show decodeScalar _ = _
  unfold decodeScalar; rw [rr_major]
  show decodePool _ = _
  simp (disch := decide) only [decodePool, fG, fD, fA, fB, fFn, rr_f, rr_b, rr_a, rr_d, rr_g, slice_all, slice_low, slice_high, pred_top, pred_low, Nat.reduceSub, BitVec.reduceExtractLsb', BitVec.reduceToNat, if_true, and_self])
theorem pputTry (g : BitVec 3) (d : BitVec 5) (a : BitVec 5) (b : BitVec 5) (p : BitVec 3) : Statement (.pputTry g d a b p) := fun _ => .inr (by
  show decodeScalar _ = _
  unfold decodeScalar; rw [rr_major]
  show decodePool _ = _
  simp (disch := decide) only [decodePool, fG, fD, fA, fB, fFn, rr_f, rr_b, rr_a, rr_d, rr_g, slice_all, slice_low, slice_high, pred_top, pred_low, Nat.reduceSub, BitVec.reduceExtractLsb', BitVec.reduceToNat, if_true, and_self])
theorem ptake (g : BitVec 3) (d : BitVec 5) (a : BitVec 5) (b : BitVec 5) (p : BitVec 3) : Statement (.ptake g d a b p) := fun _ => .inr (by
  show decodeScalar _ = _
  unfold decodeScalar; rw [rr_major]
  show decodePool _ = _
  simp (disch := decide) only [decodePool, fG, fD, fA, fB, fFn, rr_f, rr_b, rr_a, rr_d, rr_g, slice_all, slice_low, slice_high, pred_top, pred_low, Nat.reduceSub, BitVec.reduceExtractLsb', BitVec.reduceToNat, if_true, and_self])
theorem ppeek (g : BitVec 3) (d : BitVec 5) (a : BitVec 5) (b : BitVec 5) (p : BitVec 3) : Statement (.ppeek g d a b p) := fun _ => .inr (by
  show decodeScalar _ = _
  unfold decodeScalar; rw [rr_major]
  show decodePool _ = _
  simp (disch := decide) only [decodePool, fG, fD, fA, fB, fFn, rr_f, rr_b, rr_a, rr_d, rr_g, slice_all, slice_low, slice_high, pred_top, pred_low, Nat.reduceSub, BitVec.reduceExtractLsb', BitVec.reduceToNat, if_true, and_self])
theorem exit (g : BitVec 3) : Statement (.exit g) := fun _ => .inr (by
  show decodeScalar _ = _
  unfold decodeScalar; rw [sys_major]
  show decodeSystem _ = _
  simp (disch := decide) only [decodeSystem, fG, fFn6, fImm16, sys_i, sys_f, sys_g, slice_all, slice_low, slice_high, pred_top, pred_low, Nat.reduceSub, BitVec.reduceExtractLsb', BitVec.reduceToNat, if_true, and_self])
theorem hbeat (g : BitVec 3) : Statement (.hbeat g) := fun _ => .inr (by
  show decodeScalar _ = _
  unfold decodeScalar; rw [sys_major]
  show decodeSystem _ = _
  simp (disch := decide) only [decodeSystem, fG, fFn6, fImm16, sys_i, sys_f, sys_g, slice_all, slice_low, slice_high, pred_top, pred_low, Nat.reduceSub, BitVec.reduceExtractLsb', BitVec.reduceToNat, if_true, and_self])
theorem swtrap (g : BitVec 3) (n : BitVec 16) : Statement (.swtrap g n) := fun _ => .inr (by
  show decodeScalar _ = _
  unfold decodeScalar; rw [sys_major]
  show decodeSystem _ = _
  simp (disch := decide) only [decodeSystem, fG, fFn6, fImm16, sys_i, sys_f, sys_g, slice_all, slice_low, slice_high, pred_top, pred_low, Nat.reduceSub, BitVec.reduceExtractLsb', BitVec.reduceToNat, if_true, and_self])
theorem eret (g : BitVec 3) : Statement (.eret g) := fun _ => .inr (by
  show decodeScalar _ = _
  unfold decodeScalar; rw [sys_major]
  show decodeSystem _ = _
  simp (disch := decide) only [decodeSystem, fG, fFn6, fImm16, sys_i, sys_f, sys_g, slice_all, slice_low, slice_high, pred_top, pred_low, Nat.reduceSub, BitVec.reduceExtractLsb', BitVec.reduceToNat, if_true, and_self])
theorem getcr (g : BitVec 3) (d : BitVec 5) (a : BitVec 5) (i : BitVec 12) : Statement (.getcr g d a i) := fun _ => .inr (by
  show decodeScalar _ = _
  unfold decodeScalar; rw [ri_major]
  show some _ = some _
  simp (disch := decide) only [fG, fD, fA, fImm12, ri_i, ri_a, ri_d, ri_g, slice_all, slice_low, slice_high, pred_top, pred_low, Nat.reduceSub, BitVec.reduceExtractLsb', BitVec.reduceToNat, if_true, and_self])
theorem setcr (g : BitVec 3) (d : BitVec 5) (a : BitVec 5) (i : BitVec 12) : Statement (.setcr g d a i) := fun _ => .inr (by
  show decodeScalar _ = _
  unfold decodeScalar; rw [ri_major]
  show some _ = some _
  simp (disch := decide) only [fG, fD, fA, fImm12, ri_i, ri_a, ri_d, ri_g, slice_all, slice_low, slice_high, pred_top, pred_low, Nat.reduceSub, BitVec.reduceExtractLsb', BitVec.reduceToNat, if_true, and_self])
theorem lEnop (w : EWord) : Statement (.lEnop w) := fun h => .inr ((decodeEntry_e .l 0x02#8 w [] (eWf_wait _ _ _ _ h) (by decide)).trans rfl)
theorem lstrm (w : EWord) (x1 : BitVec 56) (x2 : BitVec 56) (x3 : BitVec 56) : Statement (.lstrm w x1 x2 x3) := fun h => .inr ((decodeEntry_e .l 0x10#8 w [x1, x2, x3] (eWf_wait _ _ _ _ h) (by decide)).trans rfl)
theorem lgathBm (w : EWord) (x1 : BitVec 56) (x2 : BitVec 56) (x3 : BitVec 56) : Statement (.lgathBm w x1 x2 x3) := fun h => .inr ((decodeEntry_e .l 0x11#8 w [x1, x2, x3] (eWf_wait _ _ _ _ h) (by decide)).trans rfl)
theorem lgathRl (w : EWord) (x1 : BitVec 56) (x2 : BitVec 56) (x3 : BitVec 56) : Statement (.lgathRl w x1 x2 x3) := fun h => .inr ((decodeEntry_e .l 0x12#8 w [x1, x2, x3] (eWf_wait _ _ _ _ h) (by decide)).trans rfl)
theorem lcbx (w : EWord) (x1 : BitVec 56) (x2 : BitVec 56) : Statement (.lcbx w x1 x2) := fun h => .inr ((decodeEntry_e .l 0x13#8 w [x1, x2] (eWf_wait _ _ _ _ h) (by decide)).trans rfl)
theorem lcbtab (w : EWord) (x1 : BitVec 56) : Statement (.lcbtab w x1) := fun h => .inr ((decodeEntry_e .l 0x14#8 w [x1] (eWf_wait _ _ _ _ h) (by decide)).trans rfl)
theorem lpkld (w : EWord) (x1 : BitVec 56) (x2 : BitVec 56) : Statement (.lpkld w x1 x2) := fun h => .inr ((decodeEntry_e .l 0x15#8 w [x1, x2] (eWf_wait _ _ _ _ h) (by decide)).trans rfl)
theorem lbmg (w : EWord) (x1 : BitVec 56) (x2 : BitVec 56) (x3 : BitVec 56) : Statement (.lbmg w x1 x2 x3) := fun h => .inr ((decodeEntry_e .l 0x16#8 w [x1, x2, x3] (eWf_wait _ _ _ _ h) (by decide)).trans rfl)
theorem wSetrm (w : EWord) : Statement (.wSetrm w) := fun h => .inr ((decodeEntry_e .w 0x01#8 w [] (eWf_wait _ _ _ _ h) (by decide)).trans rfl)
theorem wEnop (w : EWord) : Statement (.wEnop w) := fun h => .inr ((decodeEntry_e .w 0x02#8 w [] (eWf_wait _ _ _ _ h) (by decide)).trans rfl)
theorem wstrm (w : EWord) (x1 : BitVec 56) (x2 : BitVec 56) (x3 : BitVec 56) : Statement (.wstrm w x1 x2 x3) := fun h => .inr ((decodeEntry_e .w 0x10#8 w [x1, x2, x3] (eWf_wait _ _ _ _ h) (by decide)).trans rfl)
theorem wpkst (w : EWord) (x1 : BitVec 56) (x2 : BitVec 56) : Statement (.wpkst w x1 x2) := fun h => .inr ((decodeEntry_e .w 0x11#8 w [x1, x2] (eWf_wait _ _ _ _ h) (by decide)).trans rfl)
theorem wscat (w : EWord) (x1 : BitVec 56) (x2 : BitVec 56) (x3 : BitVec 56) : Statement (.wscat w x1 x2 x3) := fun h => .inr ((decodeEntry_e .w 0x12#8 w [x1, x2, x3] (eWf_wait _ _ _ _ h) (by decide)).trans rfl)
theorem mSetrm (w : EWord) : Statement (.mSetrm w) := fun h => .inr ((decodeEntry_e .m 0x01#8 w [] (eWf_wait _ _ _ _ h) (by decide)).trans rfl)
theorem mEnop (w : EWord) : Statement (.mEnop w) := fun h => .inr ((decodeEntry_e .m 0x02#8 w [] (eWf_wait _ _ _ _ h) (by decide)).trans rfl)
theorem mlease (w : EWord) : Statement (.mlease w) := fun h => .inr ((decodeEntry_e .m 0x10#8 w [] (eWf_wait _ _ _ _ h) (by decide)).trans rfl)
theorem mrel (w : EWord) : Statement (.mrel w) := fun h => .inr ((decodeEntry_e .m 0x11#8 w [] (eWf_wait _ _ _ _ h) (by decide)).trans rfl)
theorem mmul (w : EWord) (x1 : BitVec 56) : Statement (.mmul w x1) := fun h => .inr ((decodeEntry_e .m 0x12#8 w [x1] (eWf_wait _ _ _ _ h) (by decide)).trans rfl)
theorem mmul2 (w : EWord) (x1 : BitVec 56) (x2 : BitVec 56) : Statement (.mmul2 w x1 x2) := fun h => .inr ((decodeEntry_e .m 0x13#8 w [x1, x2] (eWf_wait _ _ _ _ h) (by decide)).trans rfl)
theorem mdrain (w : EWord) (x1 : BitVec 56) (x2 : BitVec 56) : Statement (.mdrain w x1 x2) := fun h => .inr ((decodeEntry_e .m 0x14#8 w [x1, x2] (eWf_wait _ _ _ _ h) (by decide)).trans rfl)
theorem mzero (w : EWord) : Statement (.mzero w) := fun h => .inr ((decodeEntry_e .m 0x15#8 w [] (eWf_wait _ _ _ _ h) (by decide)).trans rfl)
theorem cSetrm (w : EWord) : Statement (.cSetrm w) := fun h => .inr ((decodeEntry_e .c 0x01#8 w [] (eWf_wait _ _ _ _ h) (by decide)).trans rfl)
theorem cEnop (w : EWord) : Statement (.cEnop w) := fun h => .inr ((decodeEntry_e .c 0x02#8 w [] (eWf_wait _ _ _ _ h) (by decide)).trans rfl)
theorem ccopy (w : EWord) (x1 : BitVec 56) (x2 : BitVec 56) : Statement (.ccopy w x1 x2) := fun h => .inr ((decodeEntry_e .c 0x10#8 w [x1, x2] (eWf_wait _ _ _ _ h) (by decide)).trans rfl)
theorem cwin (w : EWord) (x1 : BitVec 56) (x2 : BitVec 56) (x3 : BitVec 56) : Statement (.cwin w x1 x2 x3) := fun h => .inr ((decodeEntry_e .c 0x11#8 w [x1, x2, x3] (eWf_wait _ _ _ _ h) (by decide)).trans rfl)
theorem cadd (w : EWord) (x1 : BitVec 56) (x2 : BitVec 56) : Statement (.cadd w x1 x2) := fun h => .inr ((decodeEntry_e .c 0x12#8 w [x1, x2] (eWf_wait _ _ _ _ h) (by decide)).trans rfl)
theorem caccld (w : EWord) (x1 : BitVec 56) : Statement (.caccld w x1) := fun h => .inr ((decodeEntry_e .c 0x13#8 w [x1] (eWf_wait _ _ _ _ h) (by decide)).trans rfl)
theorem caccst (w : EWord) (x1 : BitVec 56) : Statement (.caccst w x1) := fun h => .inr ((decodeEntry_e .c 0x14#8 w [x1] (eWf_wait _ _ _ _ h) (by decide)).trans rfl)
theorem cexp (w : EWord) (x1 : BitVec 56) : Statement (.cexp w x1) := fun h => .inr ((decodeEntry_e .c 0x15#8 w [x1] (eWf_wait _ _ _ _ h) (by decide)).trans rfl)
theorem carr (w : EWord) (x1 : BitVec 56) : Statement (.carr w x1) := fun h => .inr ((decodeEntry_e .c 0x16#8 w [x1] (eWf_wait _ _ _ _ h) (by decide)).trans rfl)
theorem trInvComplete : Statement .trInvComplete := fun _ => .inl rfl
theorem eventLogTick : Statement .eventLogTick := fun _ => .inl rfl
theorem fqAckRetry (die : Nat) (seq : Nat) : Statement (.fqAckRetry die seq) := fun _ => .inl rfl
theorem fqAckSkip (die : Nat) (seq : Nat) : Statement (.fqAckSkip die seq) := fun _ => .inl rfl
theorem fqAckKill (die : Nat) (seq : Nat) : Statement (.fqAckKill die seq) := fun _ => .inl rfl
theorem trInv (w : BitVec 64) : Statement (.trInv w) := fun _ => .inl rfl
theorem mirNone (core : Nat) : Statement (.mirNone core) := fun _ => .inl rfl
theorem freeze (core : Nat) : Statement (.freeze core) := fun _ => .inl rfl
theorem save (core : Nat) : Statement (.save core) := fun _ => .inl rfl
theorem imgout (core : Nat) : Statement (.imgout core) := fun _ => .inl rfl
theorem imgin (core : Nat) (ctx : Nat) : Statement (.imgin core ctx) := fun _ => .inl rfl
theorem load (core : Nat) (ctx : Nat) : Statement (.load core ctx) := fun _ => .inl rfl
theorem resume (core : Nat) : Statement (.resume core) := fun _ => .inl rfl
theorem discard (core : Nat) : Statement (.discard core) := fun _ => .inl rfl
theorem mirReserved (core : Nat) (cmd : Nat) : Statement (.mirReserved core cmd) := fun _ => .inl rfl
theorem cpGo (cl : Nat) (w : BitVec 64) : Statement (.cpGo cl w) := fun _ => .inl rfl
theorem streamStart (die : Nat) (w : BitVec 64) : Statement (.streamStart die w) := fun _ => .inl rfl
theorem cmdResume (die : Nat) (ctx : Nat) : Statement (.cmdResume die ctx) := fun _ => .inl rfl
theorem correctableError (cl : Nat) : Statement (.correctableError cl) := fun _ => .inl rfl
theorem uncorrectableError (kind : Nat) (where_ : Nat) : Statement (.uncorrectableError kind where_) := fun _ => .inl rfl
theorem stateLost (kind n : Nat) : Statement (.stateLost kind n) := fun _ => .inl rfl
theorem fatalError (die : Nat) (unit : Nat) : Statement (.fatalError die unit) := fun _ => .inl rfl
theorem dlvDescWrite (die : Nat) (w : BitVec 64) : Statement (.dlvDescWrite die w) := fun _ => .inl rfl
theorem sysPartWrite (w : BitVec 64) : Statement (.sysPartWrite w) := fun _ => .inl rfl
theorem tsuiqCopy (port : Nat) (src : Nat) (dst : Nat) (len : Nat) (tag : Nat) : Statement (.tsuiqCopy port src dst len tag) := fun _ => .inl rfl
theorem pcieBar2Write (addr : Nat) (len : Nat) (w : BitVec 4096) : Statement (.pcieBar2Write addr len w) := fun _ => .inl rfl
theorem powerGood : Statement .powerGood := fun _ => .inl rfl
theorem bootStageTimeout : Statement .bootStageTimeout := fun _ => .inl rfl
theorem sysReadyWrite (w : BitVec 64) : Statement (.sysReadyWrite w) := fun _ => .inl rfl
theorem updateWrite (head : Nat) (pk : Nat) (body : Nat) : Statement (.updateWrite head pk body) := fun _ => .inl rfl
theorem sensorSample (die : Nat) (sensor : Nat) (w : BitVec 32) : Statement (.sensorSample die sensor w) := fun _ => .inl rfl
theorem windowRegisterWrite (acc : Nat) (w : BitVec 64) : Statement (.windowRegisterWrite acc w) := fun _ => .inl rfl
theorem contextCreate (ctx : Nat) : Statement (.contextCreate ctx) := fun _ => .inl rfl
theorem poolAllocate (pool grant : Nat) : Statement (.poolAllocate pool grant) := fun _ => .inl rfl
theorem poolFree (pool : Nat) : Statement (.poolFree pool) := fun _ => .inl rfl
theorem scalarWordNotInstruction (w : BitVec 32) : Statement (.scalarWordNotInstruction w) := fun _ => .inl rfl
theorem engineWordNotCommand (w : BitVec 64) : Statement (.engineWordNotCommand w) := fun _ => .inl rfl
theorem systemWriterWrite (unit : Nat) (addr : Nat) (len : Nat) (w : BitVec 512) : Statement (.systemWriterWrite unit addr len w) := fun _ => .inl rfl
theorem bootStageDone : Statement .bootStageDone := fun _ => .inl rfl
theorem powerDown : Statement .powerDown := fun _ => .inl rfl
theorem tsuiqLinkLost (port : Nat) : Statement (.tsuiqLinkLost port) := fun _ => .inl rfl
theorem vSetrm (w : VWord) : Statement (.vSetrm w) := fun h => .inr ((decodeEntry_v 0x01#8 w (vWf_wait _ _ h)).trans rfl)
theorem vEnop (w : VWord) : Statement (.vEnop w) := fun h => .inr ((decodeEntry_v 0x02#8 w (vWf_wait _ _ h)).trans rfl)
theorem vtos (w : VWord) : Statement (.vtos w) := fun h => .inr ((decodeEntry_v 0x03#8 w (vWf_wait _ _ h)).trans rfl)
theorem vloop (w : VWord) : Statement (.vloop w) := fun h => .inr ((decodeEntry_v 0x04#8 w (vWf_wait _ _ h)).trans rfl)
theorem vdefer (w : VWord) : Statement (.vdefer w) := fun h => .inr ((decodeEntry_v 0x05#8 w (vWf_wait _ _ h)).trans rfl)
theorem vdrain (w : VWord) : Statement (.vdrain w) := fun h => .inr ((decodeEntry_v 0x06#8 w (vWf_wait _ _ h)).trans rfl)
theorem vsel (w : VWord) : Statement (.vsel w) := fun h => .inr ((decodeEntry_v 0x07#8 w (vWf_wait _ _ h)).trans rfl)
theorem vmand (w : VWord) : Statement (.vmand w) := fun h => .inr ((decodeEntry_v 0x08#8 w (vWf_wait _ _ h)).trans rfl)
theorem vmor (w : VWord) : Statement (.vmor w) := fun h => .inr ((decodeEntry_v 0x09#8 w (vWf_wait _ _ h)).trans rfl)
theorem vmxor (w : VWord) : Statement (.vmxor w) := fun h => .inr ((decodeEntry_v 0x0A#8 w (vWf_wait _ _ h)).trans rfl)
theorem vmandn (w : VWord) : Statement (.vmandn w) := fun h => .inr ((decodeEntry_v 0x0B#8 w (vWf_wait _ _ h)).trans rfl)
theorem vmnot (w : VWord) : Statement (.vmnot w) := fun h => .inr ((decodeEntry_v 0x0C#8 w (vWf_wait _ _ h)).trans rfl)
theorem vmpop (w : VWord) : Statement (.vmpop w) := fun h => .inr ((decodeEntry_v 0x0D#8 w (vWf_wait _ _ h)).trans rfl)
theorem vaddI32 (w : VWord) : Statement (.vaddI32 w) := fun h => .inr ((decodeEntry_v 0x10#8 w (vWf_wait _ _ h)).trans rfl)
theorem vsubI32 (w : VWord) : Statement (.vsubI32 w) := fun h => .inr ((decodeEntry_v 0x11#8 w (vWf_wait _ _ h)).trans rfl)
theorem vmulI32 (w : VWord) : Statement (.vmulI32 w) := fun h => .inr ((decodeEntry_v 0x12#8 w (vWf_wait _ _ h)).trans rfl)
theorem vmulhI32 (w : VWord) : Statement (.vmulhI32 w) := fun h => .inr ((decodeEntry_v 0x13#8 w (vWf_wait _ _ h)).trans rfl)
theorem vmulhN32 (w : VWord) : Statement (.vmulhN32 w) := fun h => .inr ((decodeEntry_v 0x14#8 w (vWf_wait _ _ h)).trans rfl)
theorem vdivI32 (w : VWord) : Statement (.vdivI32 w) := fun h => .inr ((decodeEntry_v 0x15#8 w (vWf_wait _ _ h)).trans rfl)
theorem vdivN32 (w : VWord) : Statement (.vdivN32 w) := fun h => .inr ((decodeEntry_v 0x16#8 w (vWf_wait _ _ h)).trans rfl)
theorem vminI32 (w : VWord) : Statement (.vminI32 w) := fun h => .inr ((decodeEntry_v 0x17#8 w (vWf_wait _ _ h)).trans rfl)
theorem vmaxI32 (w : VWord) : Statement (.vmaxI32 w) := fun h => .inr ((decodeEntry_v 0x18#8 w (vWf_wait _ _ h)).trans rfl)
theorem vminN32 (w : VWord) : Statement (.vminN32 w) := fun h => .inr ((decodeEntry_v 0x19#8 w (vWf_wait _ _ h)).trans rfl)
theorem vmaxN32 (w : VWord) : Statement (.vmaxN32 w) := fun h => .inr ((decodeEntry_v 0x1A#8 w (vWf_wait _ _ h)).trans rfl)
theorem vaddsI32 (w : VWord) : Statement (.vaddsI32 w) := fun h => .inr ((decodeEntry_v 0x1B#8 w (vWf_wait _ _ h)).trans rfl)
theorem vand (w : VWord) : Statement (.vand w) := fun h => .inr ((decodeEntry_v 0x20#8 w (vWf_wait _ _ h)).trans rfl)
theorem vor (w : VWord) : Statement (.vor w) := fun h => .inr ((decodeEntry_v 0x21#8 w (vWf_wait _ _ h)).trans rfl)
theorem vxor (w : VWord) : Statement (.vxor w) := fun h => .inr ((decodeEntry_v 0x22#8 w (vWf_wait _ _ h)).trans rfl)
theorem vandn (w : VWord) : Statement (.vandn w) := fun h => .inr ((decodeEntry_v 0x23#8 w (vWf_wait _ _ h)).trans rfl)
theorem vsll (w : VWord) : Statement (.vsll w) := fun h => .inr ((decodeEntry_v 0x24#8 w (vWf_wait _ _ h)).trans rfl)
theorem vsrl (w : VWord) : Statement (.vsrl w) := fun h => .inr ((decodeEntry_v 0x25#8 w (vWf_wait _ _ h)).trans rfl)
theorem vsra (w : VWord) : Statement (.vsra w) := fun h => .inr ((decodeEntry_v 0x26#8 w (vWf_wait _ _ h)).trans rfl)
theorem vclz (w : VWord) : Statement (.vclz w) := fun h => .inr ((decodeEntry_v 0x27#8 w (vWf_wait _ _ h)).trans rfl)
theorem vclmul (w : VWord) : Statement (.vclmul w) := fun h => .inr ((decodeEntry_v 0x28#8 w (vWf_wait _ _ h)).trans rfl)
theorem vclmulh (w : VWord) : Statement (.vclmulh w) := fun h => .inr ((decodeEntry_v 0x29#8 w (vWf_wait _ _ h)).trans rfl)
theorem vaddF32 (w : VWord) : Statement (.vaddF32 w) := fun h => .inr ((decodeEntry_v 0x30#8 w (vWf_wait _ _ h)).trans rfl)
theorem vsubF32 (w : VWord) : Statement (.vsubF32 w) := fun h => .inr ((decodeEntry_v 0x31#8 w (vWf_wait _ _ h)).trans rfl)
theorem vmulF32 (w : VWord) : Statement (.vmulF32 w) := fun h => .inr ((decodeEntry_v 0x32#8 w (vWf_wait _ _ h)).trans rfl)
theorem vfmaF32 (w : VWord) : Statement (.vfmaF32 w) := fun h => .inr ((decodeEntry_v 0x33#8 w (vWf_wait _ _ h)).trans rfl)
theorem vfmsF32 (w : VWord) : Statement (.vfmsF32 w) := fun h => .inr ((decodeEntry_v 0x34#8 w (vWf_wait _ _ h)).trans rfl)
theorem vdivF32 (w : VWord) : Statement (.vdivF32 w) := fun h => .inr ((decodeEntry_v 0x35#8 w (vWf_wait _ _ h)).trans rfl)
theorem vsqrtF32 (w : VWord) : Statement (.vsqrtF32 w) := fun h => .inr ((decodeEntry_v 0x36#8 w (vWf_wait _ _ h)).trans rfl)
theorem vminF32 (w : VWord) : Statement (.vminF32 w) := fun h => .inr ((decodeEntry_v 0x37#8 w (vWf_wait _ _ h)).trans rfl)
theorem vmaxF32 (w : VWord) : Statement (.vmaxF32 w) := fun h => .inr ((decodeEntry_v 0x38#8 w (vWf_wait _ _ h)).trans rfl)
theorem vabsF32 (w : VWord) : Statement (.vabsF32 w) := fun h => .inr ((decodeEntry_v 0x39#8 w (vWf_wait _ _ h)).trans rfl)
theorem vnegF32 (w : VWord) : Statement (.vnegF32 w) := fun h => .inr ((decodeEntry_v 0x3A#8 w (vWf_wait _ _ h)).trans rfl)
theorem vexp2F32 (w : VWord) : Statement (.vexp2F32 w) := fun h => .inr ((decodeEntry_v 0x3B#8 w (vWf_wait _ _ h)).trans rfl)
theorem vcmpEqI32 (w : VWord) : Statement (.vcmpEqI32 w) := fun h => .inr ((decodeEntry_v 0x40#8 w (vWf_wait _ _ h)).trans rfl)
theorem vcmpLtI32 (w : VWord) : Statement (.vcmpLtI32 w) := fun h => .inr ((decodeEntry_v 0x41#8 w (vWf_wait _ _ h)).trans rfl)
theorem vcmpLeI32 (w : VWord) : Statement (.vcmpLeI32 w) := fun h => .inr ((decodeEntry_v 0x42#8 w (vWf_wait _ _ h)).trans rfl)
theorem vcmpLtN32 (w : VWord) : Statement (.vcmpLtN32 w) := fun h => .inr ((decodeEntry_v 0x43#8 w (vWf_wait _ _ h)).trans rfl)
theorem vcmpEqF32 (w : VWord) : Statement (.vcmpEqF32 w) := fun h => .inr ((decodeEntry_v 0x44#8 w (vWf_wait _ _ h)).trans rfl)
theorem vcmpLtF32 (w : VWord) : Statement (.vcmpLtF32 w) := fun h => .inr ((decodeEntry_v 0x45#8 w (vWf_wait _ _ h)).trans rfl)
theorem vcmpLeF32 (w : VWord) : Statement (.vcmpLeF32 w) := fun h => .inr ((decodeEntry_v 0x46#8 w (vWf_wait _ _ h)).trans rfl)
theorem vcmpUnF32 (w : VWord) : Statement (.vcmpUnF32 w) := fun h => .inr ((decodeEntry_v 0x47#8 w (vWf_wait _ _ h)).trans rfl)
theorem vcvtF32I32 (w : VWord) : Statement (.vcvtF32I32 w) := fun h => .inr ((decodeEntry_v 0x50#8 w (vWf_wait _ _ h)).trans rfl)
theorem vcvtI32F32 (w : VWord) : Statement (.vcvtI32F32 w) := fun h => .inr ((decodeEntry_v 0x51#8 w (vWf_wait _ _ h)).trans rfl)
theorem vcvtF32F16 (w : VWord) : Statement (.vcvtF32F16 w) := fun h => .inr ((decodeEntry_v 0x52#8 w (vWf_wait _ _ h)).trans rfl)
theorem vcvtF32Bf16 (w : VWord) : Statement (.vcvtF32Bf16 w) := fun h => .inr ((decodeEntry_v 0x53#8 w (vWf_wait _ _ h)).trans rfl)
theorem vcvtF16F32 (w : VWord) : Statement (.vcvtF16F32 w) := fun h => .inr ((decodeEntry_v 0x54#8 w (vWf_wait _ _ h)).trans rfl)
theorem vcvtBf16F32 (w : VWord) : Statement (.vcvtBf16F32 w) := fun h => .inr ((decodeEntry_v 0x55#8 w (vWf_wait _ _ h)).trans rfl)
theorem vnarrow (w : VWord) : Statement (.vnarrow w) := fun h => .inr ((decodeEntry_v 0x56#8 w (vWf_wait _ _ h)).trans rfl)
theorem vwiden (w : VWord) : Statement (.vwiden w) := fun h => .inr ((decodeEntry_v 0x57#8 w (vWf_wait _ _ h)).trans rfl)
theorem vperm (w : VWord) : Statement (.vperm w) := fun h => .inr ((decodeEntry_v 0x60#8 w (vWf_wait _ _ h)).trans rfl)
theorem vslideup (w : VWord) : Statement (.vslideup w) := fun h => .inr ((decodeEntry_v 0x61#8 w (vWf_wait _ _ h)).trans rfl)
theorem vslidedn (w : VWord) : Statement (.vslidedn w) := fun h => .inr ((decodeEntry_v 0x62#8 w (vWf_wait _ _ h)).trans rfl)
theorem vbcast (w : VWord) : Statement (.vbcast w) := fun h => .inr ((decodeEntry_v 0x63#8 w (vWf_wait _ _ h)).trans rfl)
theorem vmov (w : VWord) : Statement (.vmov w) := fun h => .inr ((decodeEntry_v 0x64#8 w (vWf_wait _ _ h)).trans rfl)
theorem vredaddF32 (w : VWord) : Statement (.vredaddF32 w) := fun h => .inr ((decodeEntry_v 0x70#8 w (vWf_wait _ _ h)).trans rfl)
theorem vredaddF64 (w : VWord) : Statement (.vredaddF64 w) := fun h => .inr ((decodeEntry_v 0x71#8 w (vWf_wait _ _ h)).trans rfl)
theorem vredmaxF32 (w : VWord) : Statement (.vredmaxF32 w) := fun h => .inr ((decodeEntry_v 0x72#8 w (vWf_wait _ _ h)).trans rfl)
theorem vredaddI32 (w : VWord) : Statement (.vredaddI32 w) := fun h => .inr ((decodeEntry_v 0x73#8 w (vWf_wait _ _ h)).trans rfl)
theorem vtopk (w : VWord) : Statement (.vtopk w) := fun h => .inr ((decodeEntry_v 0x74#8 w (vWf_wait _ _ h)).trans rfl)
theorem rcinitD (w : VWord) : Statement (.rcinitD w) := fun h => .inr (by
  show decodeEncoded (.entry .v [vWord 0x80#8 w]) = _
  rw [decodeEntry_v _ _ (vWf_wait _ _ h)]
  show (if w.mod = 1#3 then _ else _) = _
  rw [if_neg]
  intro e; simp [Instr.wf, vWf, Machine.VForm.fault, Machine.VForm.fieldsOk, Machine.fRcinitD, e] at h; split at h <;> simp at h)
theorem rcinitE (w : VWord) : Statement (.rcinitE w) := fun h => .inr (by
  have h2 : vWf Machine.fRcinitE w = true ∧ w.mod = 1 := by simpa [Instr.wf] using h
  show decodeEncoded (.entry .v [vWord 0x80#8 w]) = _
  rw [decodeEntry_v _ _ (vWf_wait _ _ h2.1)]
  show (if w.mod = 1#3 then _ else _) = _
  exact if_pos h2.2)
theorem rcfin (w : VWord) : Statement (.rcfin w) := fun h => .inr ((decodeEntry_v 0x81#8 w (vWf_wait _ _ h)).trans rfl)
theorem rcstat (w : VWord) : Statement (.rcstat w) := fun h => .inr ((decodeEntry_v 0x82#8 w (vWf_wait _ _ h)).trans rfl)
theorem rcdec (w : VWord) : Statement (.rcdec w) := fun h => .inr ((decodeEntry_v 0x83#8 w (vWf_wait _ _ h)).trans rfl)
theorem rcdecm (w : VWord) : Statement (.rcdecm w) := fun h => .inr ((decodeEntry_v 0x84#8 w (vWf_wait _ _ h)).trans rfl)
theorem rcenc (w : VWord) : Statement (.rcenc w) := fun h => .inr ((decodeEntry_v 0x85#8 w (vWf_wait _ _ h)).trans rfl)
theorem rcencm (w : VWord) : Statement (.rcencm w) := fun h => .inr ((decodeEntry_v 0x86#8 w (vWf_wait _ _ h)).trans rfl)
theorem rckpt (w : VWord) : Statement (.rckpt w) := fun h => .inr ((decodeEntry_v 0x87#8 w (vWf_wait _ _ h)).trans rfl)
theorem rcroll (w : VWord) : Statement (.rcroll w) := fun h => .inr ((decodeEntry_v 0x88#8 w (vWf_wait _ _ h)).trans rfl)
theorem qsq (w : VWord) : Statement (.qsq w) := fun h => .inr ((decodeEntry_v 0x89#8 w (vWf_wait _ _ h)).trans rfl)
theorem qmov (w : VWord) : Statement (.qmov w) := fun h => .inr ((decodeEntry_v 0x8A#8 w (vWf_wait _ _ h)).trans rfl)
theorem qadapt (w : VWord) : Statement (.qadapt w) := fun h => .inr ((decodeEntry_v 0x8B#8 w (vWf_wait _ _ h)).trans rfl)
theorem cdfsw (w : VWord) : Statement (.cdfsw w) := fun h => .inr ((decodeEntry_v 0x8C#8 w (vWf_wait _ _ h)).trans rfl)

end RoundTrip

end Sys2Proof.Laws
end

