-- ==== Sys2Proof/Laws/Scalar.lean ====
section
/-! SUPPORT. What the shared operations of scalar instructions do: retiring, results, guards. -/
namespace Sys2Proof.Machine

@[simp] theorem core_setCore_eq (s : State) (c : Nat) (k : Core) : (s.setCore c k).core c = k := setCore_core_self s c k

theorem dropIssued_eq (s : State) (c : Nat) : dropIssued s c = s.setCore c { s.core c with pr := issued (s.core c).pr } := rfl

/-- What retiring an instruction leaves in its core (R173). -/
def retired (next : Option W64) (lat : Nat) (k : IKind) (counts : Bool) (x : Core) : Core :=
  let tainted := x.wd.tainted && match k with
    | .plain => true
    | .load _ v => x.wd.last.map (·.2) = some v
    | .other => false
  { x with pr := issued x.pr
           su := { x.su with pc := next.getD (x.su.pc + 4), next := x.cy + (if x.pr.bound then lat else max lat 2), wait := .idle, steps := 0, bm := [], spin := noteSpin k x.su.spin }
           wd := { x.wd with prog := x.wd.prog || (counts && !tainted), tainted := tainted } }

theorem issued_bound (p : PrismCore) : (issued p).bound = p.bound := by unfold issued; split <;> rfl

theorem retire_eq (s : State) (c : Nat) (next : Option W64) (lat : Nat) (k : IKind) (counts : Bool) :
    retire s c next lat k counts = s.setCore c (retired next lat k counts (s.core c)) := by
  unfold retire
  simp only [dropIssued_eq, modCore_eq_setCore, setCore_setCore, core_setCore_eq]
  simp only [retired, issued_bound]
  all_goals (cases k <;> rfl)

theorem setX_eq (s : State) (r : BitVec 5) (v : W64) (lat : Nat) :
    s.setX r v lat = s.setCore s.cur.1 { s.me with su := s.me.su.result s.me.cy r.toNat v lat } := rfl
theorem setP_eq (s : State) (n : BitVec 3) (v : Bool) (lat : Nat) :
    s.setP n v lat = s.setCore s.cur.1 { s.me with su := s.me.su.resultPred s.me.cy n.toNat v lat } := rfl

theorem scalar_ok (g : BitVec 3) (f : State → SRes) (s t : State) (next : Option W64) (lat : Nat) (k : IKind) (hg : s.pred g = true)
    (hf : f s = .ok t next lat k) : scalar g f s = retire t s.cur.1 next lat k true := by
  simp [scalar, hg, hf]
theorem scalar_false (g : BitVec 3) (f : State → SRes) (s : State) (hg : s.pred g = false) :
    scalar g f s = retire s s.cur.1 none 1 .plain false := by
  simp [scalar, hg]
theorem scalar_trap (g : BitVec 3) (f : State → SRes) (s t : State) (cause sw : Nat) (info : Option Nat) (hg : s.pred g = true)
    (hf : f s = .trap cause sw info t) : scalar g f s = trapS t s.cur.1 cause sw info := by
  simp [scalar, hg, hf]

theorem setLat_eq (s : State) (r : BitVec 5) (v : W64) (l : Lat) :
    s.setLat r v l = s.setCore s.cur.1 { s.me with su := s.me.su.resultLat s.me.cy s.now r.toNat v l } := rfl
theorem performs_eq (s : State) (l : Lat) :
    s.performs l = s.setCore s.cur.1 { s.me with su := { s.me.su with performed := max s.me.su.performed (s.me.cy + l.dom), farDone := max s.me.su.farDone (s.now + l.far) } } := rfl
theorem holdsFar_eq (s : State) (n : Nat) : s.holdsFar n = s.setCore s.cur.1 { s.me with su := { s.me.su with farNext := s.now + n } } := rfl

/-- A result register's value, s0 reading zero. -/
theorem reg_result_self (u : SUnit) (cy : Nat) (d : BitVec 5) (v : W64) (lat : Nat) :
    (u.result cy d.toNat v lat).reg d.toNat = if d = 0 then 0 else v := by
  by_cases h : d = 0
  · subst h; simp [SUnit.reg]
  · have hd : d.toNat ≠ 0 := fun e => h (BitVec.eq_of_toNat_eq e)
    rw [reg_result, if_pos ⟨rfl, hd⟩, if_neg h]

theorem pred_resultPred_self (u : SUnit) (cy : Nat) (n : BitVec 3) (v : Bool) (lat : Nat) :
    (u.resultPred cy n.toNat v lat).pred n.toNat = if n = 0 then true else v := by
  have hn : n.toNat < 8 := n.isLt
  by_cases h : n = 0
  · subst h; simp [SUnit.pred]
  · have hz : n.toNat ≠ 0 := fun e => h (BitVec.eq_of_toNat_eq e)
    rw [pred_resultPred _ _ _ _ _ _ hn hn, if_pos ⟨rfl, hz⟩, if_neg h]

/-- What a result that is retired changes: nothing outside S, the buffer and the watchdog marks. -/
theorem retire_onlyS (s : State) (u : SUnit) (next : Option W64) (lat : Nat) (k : IKind) (counts : Bool) :
    let t := retire (s.setCore s.cur.1 { s.me with su := u }) s.cur.1 next lat k counts
    movesTo (next.getD (u.pc + 4)) s t ∧ t.me.su = (retired next lat k counts { s.me with su := u }).su := by
  simp only [retire_eq, setCore_setCore, core_setCore_eq, movesTo, onlyS, State.me, setCore_cur]
  exact ⟨⟨rfl, fun a => rfl, rfl, rfl, rfl⟩, trivial⟩

/-- An instruction that gives one register result. -/
theorem scalar_writesReg (g : BitVec 3) (f : State → SRes) (s : State) (d : BitVec 5) (v : W64) (lat l : Nat) (hg : s.pred g = true)
    (hf : f s = .ok (s.setX d v lat) none l .plain) : writesReg d v s (scalar g f s) := by
  rw [scalar_ok g f s _ _ _ _ hg hf, setX_eq]
  obtain ⟨h, hu⟩ := retire_onlyS s (s.me.su.result s.me.cy d.toNat v lat) none l .plain true
  refine ⟨by simpa using h, ?_⟩
  rw [hu]
  refine ⟨by simp [sameControl, retired], fun r hr => pred_result _ _ _ _ _ _, fun r hr => ?_, reg_result_self _ _ _ _ _⟩
  exact (reg_result _ _ _ _ _ _).trans (if_neg fun e => hr e.1)

/-- An instruction that gives one predicate result. -/
theorem scalar_writesPred (g : BitVec 3) (f : State → SRes) (s : State) (n : BitVec 3) (v : Bool) (lat l : Nat) (hg : s.pred g = true)
    (hf : f s = .ok (s.setP n v lat) none l .plain) : writesPred n v s (scalar g f s) := by
  rw [scalar_ok g f s _ _ _ _ hg hf, setP_eq]
  obtain ⟨h, hu⟩ := retire_onlyS s (s.me.su.resultPred s.me.cy n.toNat v lat) none l .plain true
  refine ⟨by simpa using h, ?_⟩
  rw [hu]
  refine ⟨by simp [sameControl, retired], fun r => reg_resultPred _ _ _ _ _ _, fun r hr hne => ?_, pred_resultPred_self _ _ _ _ _⟩
  exact (pred_resultPred _ _ _ _ _ _ n.isLt hr).trans (if_neg fun e => hne e.1)

end Sys2Proof.Machine
end

