-- ==== Sys2Proof/Laws/Step.lean ====
section
/-! SUPPORT. Everything a step can do: the turn at the head of the agenda, or the next cycle boundary. -/
namespace Sys2Proof.Machine

theorem step_turn (s : State) (t : Turn) (r : List Turn) (h : s.agenda = t :: r) : step s = runTurn { s with agenda := r } t := by
  unfold step; rw [h]
theorem step_boundary (s : State) (h : s.agenda = []) : step s = match tick s with | some t => .next t | none => .fault .stopped := by
  unfold step; rw [h]
  all_goals rfl

/-- A step that answers a next state ran the first turn of the agenda or moved to the next cycle boundary. -/
theorem step_cases (s t : State) (h : step s = .next t) :
    (∃ u r, s.agenda = u :: r ∧ runTurn { s with agenda := r } u = .next t) ∨ (s.agenda = [] ∧ tick s = some t) := by
  cases hs : s.agenda with
  | nil =>
    rw [step_boundary s hs] at h
    cases ht : tick s with
    | none => rw [ht] at h; cases h
    | some u => rw [ht] at h; cases h; exact .inr ⟨rfl, rfl⟩
  | cons u r => rw [step_turn s u r hs] at h; exact .inl ⟨u, r, rfl, h⟩

/-- A turn executes one instruction, or is a unit's turn in which nothing issues, or passes over a step that is not possible. -/
theorem runTurn_cases (s t : State) (u : Turn) (h : runTurn s u = .next t) :
    (∃ i v, ((u = .event i ∧ v = s) ∨ ∃ c e, u = .unit c e ∧ unitIssue s c e = .run i v) ∧ exec i v = .next t) ∨
    (∃ c e, u = .unit c e ∧ unitIssue s c e = .done t) ∨ (∃ i, u = .event i ∧ exec i s = .refused .notEnabled ∧ t = s) := by
  cases u with
  | event i =>
    change orElse s (exec i s) = .next t at h
    generalize hx : exec i s = x at h
    cases x with
    | next v => cases h; exact .inl ⟨i, s, .inl ⟨rfl, rfl⟩, hx⟩
    | fault f => cases h
    | refused q => cases q <;> first | (cases h; done) | (cases h; exact .inr (.inr ⟨i, rfl, hx, rfl⟩))
  | unit c e =>
    simp only [runTurn] at h
    generalize hx : unitIssue s c e = x at h
    cases x with
    | done v => cases h; exact .inr (.inl ⟨c, e, rfl, hx⟩)
    | run i v => exact .inl ⟨i, v, .inr ⟨c, e, rfl, hx⟩, h⟩

end Sys2Proof.Machine
end

