-- ==== Sys2Proof/Tests/Slice0.lean ====
section
/-! SUPPORT. The model's own tests: ill-formed terms that well-formedness refuses, words of every family decoded, single steps worked out by hand, and for every statement small states that meet its hypotheses. -/

namespace Sys2Proof.Tests
set_option Elab.async false
open Sys2Proof Sys2Proof.Machine Sys2Proof.Claims

/-! ### Well-formedness: a term that each check refuses -/

/-- Numbers beyond the units there are: cores, clusters, dies, channels, ports, pools, contexts, engines, banks, kinds, the window. -/
theorem test_wf_units : ∀ i ∈ ([.parkWake 1280, .parkTimeout 1280, .cdfBankSwitch 1280 0, .cdfBankSwitch 0 16, .resultLanding 1280, .tokenPush 1280 0 0, .tokenPush 0 8 0, .tokenPush 0 0 8,
    .inboxPush 1280, .networkCompletionToken 160, .xtBankFull 1280 0, .xtBankFull 0 16, .dqElementPush 1280 1, .dqElementPush 0 0, .dqElementPush 0 3, .sqElementPop 1280, .leaseGrant 160,
    .mmulBlockWrite 1280, .mmulDrainStart 1280, .mdrainComplete 1280, .operandFetchArrival 1280, .copyChannelStart 160 0, .copyChannelStart 0 16, .copyBytesLand 160 0, .copyBytesLand 0 16,
    .copyComplete 160 0, .copyComplete 0 16, .accRowWrite 160 0, .accRowWrite 0 16, .frontEndMulticast 160, .voteResolve 160, .joinTimeout 160, .frontEndRestart 160, .fetchLineArrival 160 0,
    .fetchLineArrival 0 9, .poolSnapshot 64, .takeDecide 64 0, .takeDecide 0 4, .takePromotion 64 0, .takePromotion 0 4, .putStopArrival 64 0, .putStopArrival 0 4, .faultRecordWrite 4, .saveWrite 1280,
    .pktEnd 4 0, .pktLaunch 4 0 0, .pktLaunchi 4 0 0 0, .pktXfer 4 0 0 0 0, .pktLoop 4 0, .pktLoopi 4 0 0, .pktEndloop 4 0, .pktSkipif 4 0 0 0, .pktWait 4 0, .strandStart 1280, .throttleWindow 160,
    .watchdogIntervalEnd 1280, .deliveryTurn 4, .repetitionTrap 1280, .tsuiqCopyComplete 24, .errorFreezeEnd 160] : List Instr), i.wf = false := by decide +kernel

theorem test_wf_commands : ∀ i ∈ ([.fqAckRetry 4 0, .fqAckSkip 4 0, .fqAckKill 4 0, .mirNone 1280, .freeze 1280, .save 1280, .imgout 1280,
    .imgin 1280 0, .imgin 0 65536, .load 1280 0, .load 0 65536, .resume 1280, .discard 1280, .mirReserved 1280 8, .mirReserved 0 7, .mirReserved 0 16, .cpGo 160 0, .streamStart 4 0,
    .cmdResume 4 0, .cmdResume 0 65536, .correctableError 160, .uncorrectableError 4 0, .stateLost 5 0, .fatalError 4 0, .dlvDescWrite 4 0, .tsuiqCopy 24 0 0 0 0, .sensorSample 4 0 0,
    .windowRegisterWrite 0x60000000 0, .contextCreate 65536, .poolAllocate 64 0, .poolAllocate 0 (2 ^ 224), .poolFree 64, .tsuiqLinkLost 24, .enq 0 0 0, .enq 0 7 0] : List Instr), i.wf = false := by decide +kernel

/-- Format V: checks 3 to 6 of R171 on each kind of field, with every other field as it should be. -/
theorem test_wf_formV : ∀ i ∈ ([.vand ⟨0x10, 0, 1, 2, 3, 0, 0, 0, 0, 0⟩, .vand ⟨0, 0x10, 1, 2, 3, 0, 0, 0, 0, 0⟩, .vand ⟨0, 0, 1, 2, 3, 0, 0, 0, 1, 0⟩, .vand ⟨0, 0, 1, 2, 3, 0, 0, 0, 0, 1⟩,
    .vand ⟨0, 0, 64, 2, 3, 0, 0, 0, 0, 0⟩, .vand ⟨0, 0, 1, 72, 3, 0, 0, 0, 0, 0⟩, .vand ⟨0, 0, 1, 2, 112, 0, 0, 0, 0, 0⟩, .vfmaF32 ⟨0, 0, 1, 2, 3, 79, 0, 0, 0, 0⟩, .vaddF32 ⟨0, 0, 1, 2, 3, 0, 0, 0, 6, 0⟩,
    .vSetrm ⟨0, 0, 0, 0, 0, 0, 0, 0, 0, 0⟩, .vSetrm ⟨0, 0, 0, 0, 0, 0, 0, 0, 6, 0⟩, .vSetrm ⟨0, 0, 0, 0, 0, 0, 1, 0, 1, 0⟩, .vEnop ⟨0, 0, 0, 0, 0, 0, 1, 0, 0, 0⟩, .vmand ⟨0, 0, 0, 1, 1, 0, 0, 0, 0, 0⟩,
    .vmand ⟨0, 0, 1, 8, 1, 0, 0, 0, 0, 0⟩, .vmand ⟨0, 0, 1, 1, 8, 0, 0, 0, 0, 0⟩, .vmnot ⟨0, 0, 8, 1, 0, 0, 0, 0, 0, 0⟩, .vmpop ⟨0, 0, 1, 8, 0, 0, 0, 0, 0, 0⟩, .vcmpEqI32 ⟨0, 0, 8, 1, 1, 0, 0, 0, 0, 0⟩,
    .vtos ⟨0, 0, 0, 1, 64, 0, 0, 0, 0, 0⟩, .vtos ⟨0, 0, 0, 8, 0, 0, 0, 0, 0, 3⟩, .vtos ⟨0, 0, 0, 0, 0, 0, 0, 0, 0, 4⟩, .vloop ⟨0, 0, 0, 80, 0, 0, 0, 0, 0, 0⟩, .vloop ⟨0, 0, 65, 80, 0, 0, 0, 0, 0, 0⟩,
    .vloop ⟨0, 0, 1, 79, 0, 0, 0, 0, 0, 0⟩, .vloop ⟨0, 0, 1, 96, 0, 0, 0, 0, 0, 0⟩, .vdefer ⟨0, 0, 0, 72, 0, 0, 0, 0, 0, 0⟩, .vdrain ⟨0, 0, 61, 1, 0, 0, 0, 0, 0, 0⟩, .vdrain ⟨0, 0, 0, 0, 0, 0, 0, 0, 0, 0⟩,
    .vdrain ⟨0, 0, 0, 1, 2, 0, 0, 0, 0, 0⟩, .vdrain ⟨0, 0, 0, 1, 0, 0, 1, 0, 0, 0⟩, .vslideup ⟨0, 0, 0, 0, 0, 64, 0, 0, 0, 0⟩, .vbcast ⟨0, 0, 0, 0, 64, 0, 0, 0, 0, 0⟩, .vmov ⟨0, 0, 0, 0, 0, 0, 0, 0, 0, 2⟩,
    .vnarrow ⟨0, 0, 72, 0, 0, 1, 0, 0, 0, 0⟩, .vnarrow ⟨0, 0, 0, 0, 0, 8, 0, 0, 0, 0⟩, .vnarrow ⟨0, 0, 0, 0, 0, 0, 1, 0, 0, 0⟩, .vredaddF32 ⟨0, 0, 0, 0, 0, 0, 0, 0, 0, 2⟩, .vredmaxF32 ⟨0, 0, 0, 0, 0, 0, 0, 0, 0, 4⟩,
    .vtopk ⟨0, 0, 63, 0, 0, 1, 0, 0, 0, 0⟩, .vtopk ⟨0, 0, 0, 0, 0, 0, 0, 0, 0, 0⟩, .vtopk ⟨0, 0, 0, 0, 0, 65, 0, 0, 0, 0⟩, .rcinitD ⟨0, 0, 0, 0, 0, 8, 0, 0, 0, 0⟩, .rcinitE ⟨0, 0, 0, 0, 0, 0, 0, 0, 0, 0⟩,
    .rcinitE ⟨0, 0, 0, 0, 0, 0, 0, 0, 0, 2⟩, .rcfin ⟨0, 0, 0, 0, 0, 8, 0, 0, 0, 0⟩, .rcstat ⟨0, 0, 0, 0, 0, 0, 0, 0, 0, 7⟩, .rcdecm ⟨0, 0, 0, 0, 16, 0, 0, 0, 0, 0⟩, .rcencm ⟨0, 0, 0, 0, 16, 0, 0, 0, 0, 0⟩,
    .rckpt ⟨0, 0, 0, 0, 0, 0, 0, 0, 0, 2⟩, .qmov ⟨0, 0, 95, 0, 0, 0, 0, 0, 0, 0⟩, .cdfsw ⟨0, 0, 0, 0, 16, 0, 0, 0, 0, 0⟩] : List Instr), i.wf = false := by decide +kernel

/-- An engine word with ARGS from bit 10 of the command word on. -/
def ew (args : Nat) : EWord := ⟨0, 0, BitVec.ofNat 30 (args / 1024), 0, 0, 0⟩

/-- Format E: the checks on the word, and each command's own. -/
theorem test_wf_formE : ∀ i ∈ ([.lEnop ⟨0xFF, 0, 0, 0, 0, 0⟩, .lEnop ⟨0x06, 0, 0, 0, 0, 0⟩, .wEnop ⟨0x08, 0, 0, 0, 0, 0⟩, .mEnop ⟨0, 0x20, 0, 0, 0, 0⟩, .cEnop ⟨0, 0x40, 0, 0, 0, 0⟩, .wEnop ⟨0, 0, 1, 0, 0, 0⟩, .wEnop ⟨0, 0, 0, 1, 0, 0⟩,
    .wEnop ⟨0, 0, 0, 0, 1, 0⟩, .wEnop ⟨0, 0, 0, 0, 0, 1⟩, .wSetrm ⟨0, 0, 0, 0, 0, 0⟩, .mSetrm ⟨0, 0, 0, 0, 6, 0⟩, .cSetrm ⟨0, 0, 1, 0, 1, 0⟩, .lstrm (ew 1024) 0 0 0, .lstrm (ew (8 * 2 ^ 33)) 0 0 0, .lstrm ⟨0, 0, 0, 0, 0, 2⟩ 0 0 0,
    .lstrm (ew 0) 0x10000000000000 0 0, .lstrm (ew 0) 0 0 0x40000000000000, .lstrm (ew 0) 0 0x4000 0, .wstrm (ew (2 ^ 37)) 0 0 0, .wstrm ⟨0, 0, 0, 0, 6, 0⟩ 0 0 0, .wstrm (ew (7 * 2 ^ 33)) 0 0 0, .wstrm (ew (8 * 2 ^ 33)) 0 0 0,
    .lgathBm (ew (2 ^ 27)) 0 0 0, .lgathRl (ew (2 ^ 27 + 1024)) 0 0 1, .lgathBm (ew 0) 0 0 1, .lbmg (ew 1024) 0 0 0, .lbmg (ew 0) 0 0x100000000000 0, .lcbtab (ew 1024) 0, .lcbx (ew (15 * 2 ^ 33 + 2 ^ 29)) 0 0,
    .lpkld (ew 0) 0 0x100000000, .wpkst (ew 1024) 0 0, .wscat (ew (7 * 2 ^ 32)) 0 0 0, .mlease (ew (3 * 2 ^ 38)), .mrel (ew 1024), .mzero ⟨0, 0, 0, 1, 0, 0⟩, .mmul (ew (3 * 2 ^ 36)) 0, .mmul (ew (2 ^ 31)) 0, .mmul (ew 0) 1,
    .mmul2 (ew (2 ^ 39)) 0 0, .mmul2 (ew 0) 0 1, .mdrain (ew 0) 1 0, .mdrain (ew 0) 0 1, .ccopy (ew 0) 0 0, .ccopy (ew 1024) 0xC0000000000000 0, .ccopy (ew 1024) 0 0x40000000000000, .ccopy (ew 1024) 0x80000000000000 0,
    .cwin (ew 0) 0 0 0, .cwin (ew (3 * 2 ^ 28)) 0 0 0x10004001, .cadd (ew 0) 0x30000000000000 0, .cadd (ew (255 * 2 ^ 23)) 0 1, .caccld (ew (255 * 2 ^ 23 + 2 ^ 15)) 0, .caccst (ew 1024) 0, .cexp (ew 0) 0x10000000000000,
    .carr (ew 1024) 0] : List Instr), i.wf = false := by decide +kernel

/-! ### Decoding: a word of every constructor, written out from the encoding tables -/

/-- Scalar words, by R156 to R161. -/
theorem test_decodeInteger : ∀ e ∈ ([
    (0x60485900, .add 3 4 5 18),
    (0x60485901, .sub 3 4 5 18),
    (0x60485902, .and 3 4 5 18),
    (0x60485903, .or 3 4 5 18),
    (0x60485904, .xor 3 4 5 18),
    (0x60485905, .andn 3 4 5 18),
    (0x60485906, .sll 3 4 5 18),
    (0x60485907, .srl 3 4 5 18),
    (0x60485908, .sra 3 4 5 18),
    (0x60485909, .mul 3 4 5 18),
    (0x6048590A, .mulh 3 4 5 18),
    (0x6048590B, .mulhn 3 4 5 18),
    (0x6048590C, .div 3 4 5 18),
    (0x6048590D, .divn 3 4 5 18),
    (0x6048590E, .rem 3 4 5 18),
    (0x6048590F, .remn 3 4 5 18),
    (0x60485910, .min 3 4 5 18),
    (0x60485911, .max 3 4 5 18),
    (0x60485912, .minn 3 4 5 18),
    (0x60485913, .maxn 3 4 5 18),
    (0x60485014, .clz 3 4 5),
    (0x60485015, .ctz 3 4 5),
    (0x60485016, .popc 3 4 5),
    (0x60485917, .clmul 3 4 5 18),
    (0x60485918, .clmulh 3 4 5 18),
    (0x60485919, .sh1add 3 4 5 18),
    (0x6048591A, .sh2add 3 4 5 18),
    (0x6048591B, .sh3add 3 4 5 18),
    (0x6048591C, .sh4add 3 4 5 18),
    (0x60885A5A, .addi 3 4 5 2650),
    (0x60C85A5A, .muli 3 4 5 2650),
    (0x61085A5A, .andi 3 4 5 2650),
    (0x61485A5A, .ori 3 4 5 2650),
    (0x61885A5A, .xori 3 4 5 2650),
    (0x61C85029, .slli 3 4 5 41),
    (0x62085029, .srli 3 4 5 41),
    (0x62485029, .srai 3 4 5 41)] : List (BitVec 32 × Instr)),
    decodeScalar e.1 = some e.2 := by decide +kernel

/-- Scalar words, by R156 to R161. -/
theorem test_decodeWork : ∀ e ∈ ([
    (0x62894B4B, .li 3 4 84811),
    (0x62C94B4B, .lsi 3 4 84811),
    (0x78C80020, .dwait 3 4 2),
    (0x78C85902, .rtnew 3 4 5 18),
    (0x78C85023, .rtclaim 3 4 5 2),
    (0x78C05004, .done 3 5),
    (0x78C05905, .tmsg 3 5 18),
    (0x78C85026, .trecv 3 4 5 2)] : List (BitVec 32 × Instr)),
    decodeScalar e.1 = some e.2 := by decide +kernel

/-- Scalar words, by R156 to R161. -/
theorem test_decodeCompare : ∀ e ∈ ([
    (0x64045900, .cmpEq 3 2 5 18),
    (0x64045901, .cmpNe 3 2 5 18),
    (0x64045902, .cmpLt 3 2 5 18),
    (0x64045903, .cmpGe 3 2 5 18),
    (0x64045904, .cmpLtn 3 2 5 18),
    (0x64045905, .cmpGen 3 2 5 18),
    (0x64445A5A, .cmpiEq 3 2 5 2650),
    (0x64845A5A, .cmpiNe 3 2 5 2650),
    (0x64C45A5A, .cmpiLt 3 2 5 2650),
    (0x65045A5A, .cmpiGe 3 2 5 2650),
    (0x65445A5A, .cmpiLtn 3 2 5 2650),
    (0x65845A5A, .cmpiGen 3 2 5 2650)] : List (BitVec 32 × Instr)),
    decodeScalar e.1 = some e.2 := by decide +kernel

/-- Scalar words, by R156 to R161. -/
theorem test_decodePredicate : ∀ e ∈ ([
    (0x65C46280, .pand 3 2 6 5),
    (0x65C46281, .por 3 2 6 5),
    (0x65C46282, .pxor 3 2 6 5),
    (0x65C46283, .pandn 3 2 6 5),
    (0x65C46004, .pnot 3 2 6),
    (0x65C45005, .pset 3 2 5),
    (0x65C86006, .pget 3 4 6),
    (0x66085902, .sel 3 4 5 18 2)] : List (BitVec 32 × Instr)),
    decodeScalar e.1 = some e.2 := by decide +kernel

/-- Scalar words, by R156 to R161. -/
theorem test_decodeControl : ∀ e ∈ ([
    (0x68296969, .br 3 2713961),
    (0x68696969, .call 3 2713961),
    (0x68805000, .jr 3 5),
    (0x68805001, .callr 3 5),
    (0x68800002, .ret 3),
    (0x68C00000, .detach 3),
    (0xA8C1C155, .join 5 6 341)] : List (BitVec 32 × Instr)),
    decodeScalar e.1 = some e.2 := by decide +kernel

/-- Scalar words, by R156 to R161. -/
theorem test_decodeLoad : ∀ e ∈ ([
    (0x6C0859A5, .ldI8 3 4 5 9 165),
    (0x6C4859A5, .ldN8 3 4 5 9 165),
    (0x6C8859A5, .ldI16 3 4 5 9 165),
    (0x6CC859A5, .ldN16 3 4 5 9 165),
    (0x6D0859A5, .ldI32 3 4 5 9 165),
    (0x6D4859A5, .ldN32 3 4 5 9 165),
    (0x6D8859A5, .ldN64 3 4 5 9 165),
    (0x6E0859A5, .ldI8W 3 4 5 9 165),
    (0x6E4859A5, .ldN8W 3 4 5 9 165),
    (0x6E8859A5, .ldI16W 3 4 5 9 165),
    (0x6EC859A5, .ldN16W 3 4 5 9 165),
    (0x6F0859A5, .ldI32W 3 4 5 9 165),
    (0x6F4859A5, .ldN32W 3 4 5 9 165),
    (0x6F8859A5, .ldN64W 3 4 5 9 165),
    (0x700859A5, .ldI8Wc 3 4 5 9 165),
    (0x704859A5, .ldN8Wc 3 4 5 9 165),
    (0x708859A5, .ldI16Wc 3 4 5 9 165),
    (0x70C859A5, .ldN16Wc 3 4 5 9 165),
    (0x710859A5, .ldI32Wc 3 4 5 9 165),
    (0x714859A5, .ldN32Wc 3 4 5 9 165),
    (0x718859A5, .ldN64Wc 3 4 5 9 165)] : List (BitVec 32 × Instr)),
    decodeScalar e.1 = some e.2 := by decide +kernel

/-- Scalar words, by R156 to R161. -/
theorem test_decodeStore : ∀ e ∈ ([
    (0x720859A5, .stN8 3 4 5 9 165),
    (0x724859A5, .stN16 3 4 5 9 165),
    (0x728859A5, .stN32 3 4 5 9 165),
    (0x72C859A5, .stN64 3 4 5 9 165),
    (0x730859A5, .stN8Set 3 4 5 9 165),
    (0x734859A5, .stN16Set 3 4 5 9 165),
    (0x738859A5, .stN32Set 3 4 5 9 165),
    (0x73C859A5, .stN64Set 3 4 5 9 165),
    (0x740859A5, .stN8Clr 3 4 5 9 165),
    (0x744859A5, .stN16Clr 3 4 5 9 165),
    (0x748859A5, .stN32Clr 3 4 5 9 165),
    (0x74C859A5, .stN64Clr 3 4 5 9 165)] : List (BitVec 32 × Instr)),
    decodeScalar e.1 = some e.2 := by decide +kernel

/-- Scalar words, by R156 to R161. -/
theorem test_decodeAtomic : ∀ e ∈ ([
    (0x750859A5, .aldN32 3 4 5 9 165),
    (0x754859A5, .aldN64 3 4 5 9 165),
    (0x758859A5, .astN32 3 4 5 9 165),
    (0x75C859A5, .astN64 3 4 5 9 165),
    (0x76085948, .aaddN32 3 4 5 18 9),
    (0x76085949, .aswpN32 3 4 5 18 9),
    (0x7608594A, .amaxI32 3 4 5 18 9),
    (0x7608594B, .amaxN32 3 4 5 18 9),
    (0x7608594C, .aminI32 3 4 5 18 9),
    (0x7608594D, .aminN32 3 4 5 18 9),
    (0x7608594E, .aorN32 3 4 5 18 9),
    (0x7608594F, .acasN32 3 4 5 18 9),
    (0x76485948, .aaddN64 3 4 5 18 9),
    (0x76485949, .aswpN64 3 4 5 18 9),
    (0x7648594A, .amaxI64 3 4 5 18 9),
    (0x7648594B, .amaxN64 3 4 5 18 9),
    (0x7648594C, .aminI64 3 4 5 18 9),
    (0x7648594D, .aminN64 3 4 5 18 9),
    (0x7648594E, .aorN64 3 4 5 18 9),
    (0x7648594F, .acasN64 3 4 5 18 9)] : List (BitVec 32 × Instr)),
    decodeScalar e.1 = some e.2 := by decide +kernel

/-- Scalar words, by R156 to R161. -/
theorem test_decodeFork : ∀ e ∈ ([
    (0x7685A5A5, .fence 3 5 42405),
    (0x78000006, .fork 3 3),
    (0x78010006, .rdv 3 3),
    (0x78020003, .tksig 3 3),
    (0x78030003, .tkwait 3 3),
    (0x784A0900, .enq 3 5 18),
    (0x78540901, .ksend 3 10 18),
    (0x78485002, .ipop 3 4 5)] : List (BitVec 32 × Instr)),
    decodeScalar e.1 = some e.2 := by decide +kernel

/-- Scalar words, by R156 to R161. -/
theorem test_decodeObject : ∀ e ∈ ([
    (0x78885900, .hset 3 4 5 18),
    (0x78805001, .hfree 3 5),
    (0x78885902, .hget 3 4 5 18),
    (0x78805903, .bexp 3 5 18),
    (0x78885004, .barr 3 4 5),
    (0x78805905, .bwait 3 5 18),
    (0x78885906, .bmset 3 4 5 18),
    (0x78885907, .bmcopy 3 4 5 18)] : List (BitVec 32 × Instr)),
    decodeScalar e.1 = some e.2 := by decide +kernel

/-- Scalar words, by R156 to R161. -/
theorem test_decodeSystem : ∀ e ∈ ([
    (0x78C00001, .trig 3),
    (0x79400000, .exit 3),
    (0x79410000, .hbeat 3),
    (0x7942A5A5, .swtrap 3 42405),
    (0x79430000, .eret 3),
    (0x79885A5A, .getcr 3 4 5 2650),
    (0x79C85A5A, .setcr 3 4 5 2650)] : List (BitVec 32 × Instr)),
    decodeScalar e.1 = some e.2 := by decide +kernel

/-- Scalar words, by R156 to R161. -/
theorem test_decodePool : ∀ e ∈ ([
    (0x79085900, .pput 3 4 5 18),
    (0x79085921, .pputTry 3 4 5 18 2),
    (0x79085922, .ptake 3 4 5 18 2),
    (0x79085923, .ppeek 3 4 5 18 2)] : List (BitVec 32 × Instr)),
    decodeScalar e.1 = some e.2 := by decide +kernel

/-- Command words of V, by R164, R167 and R169. -/
theorem test_decodeVControl : ∀ e ∈ ([
    (0x020801080A286228, .vSetrm ⟨2, 8, 4, 2, 69, 6, 1, 0, 5, 0⟩),
    (0x0208020A0E207420, .vEnop ⟨2, 8, 5, 3, 68, 7, 2, 0, 4, 0⟩),
    (0x0208030C12188658, .vtos ⟨2, 8, 6, 4, 67, 8, 3, 1, 3, 0⟩),
    (0x0208040E16109850, .vloop ⟨2, 8, 7, 5, 66, 9, 4, 1, 2, 0⟩),
    (0x020805101A08AA48, .vdefer ⟨2, 8, 8, 6, 65, 10, 5, 1, 1, 0⟩),
    (0x020806121E00BC80, .vdrain ⟨2, 8, 9, 7, 64, 11, 6, 2, 0, 0⟩),
    (0x0208071421F8CEA8, .vsel ⟨2, 8, 10, 8, 63, 12, 7, 2, 5, 0⟩)] : List (W64 × Instr)),
    decodeEntry .v e.1 [] = some e.2 := by decide +kernel

/-- Command words of V, by R164, R167 and R169. -/
theorem test_decodeVMask : ∀ e ∈ ([
    (0x0208081625F0D0A0, .vmand ⟨2, 8, 11, 9, 62, 13, 0, 2, 4, 0⟩),
    (0x0208091829E8E2D8, .vmor ⟨2, 8, 12, 10, 61, 14, 1, 3, 3, 0⟩),
    (0x02080A1A2DE0F4D0, .vmxor ⟨2, 8, 13, 11, 60, 15, 2, 3, 2, 0⟩),
    (0x02080B1C31D906C8, .vmandn ⟨2, 8, 14, 12, 59, 16, 3, 3, 1, 0⟩),
    (0x02080C1E35D11900, .vmnot ⟨2, 8, 15, 13, 58, 17, 4, 4, 0, 0⟩),
    (0x02080D2039C92B28, .vmpop ⟨2, 8, 16, 14, 57, 18, 5, 4, 5, 0⟩)] : List (W64 × Instr)),
    decodeEntry .v e.1 [] = some e.2 := by decide +kernel

/-- Command words of V, by R164, R167 and R169. -/
theorem test_decodeVInt : ∀ e ∈ ([
    (0x020810223DC13D20, .vaddI32 ⟨2, 8, 17, 15, 56, 19, 6, 4, 4, 0⟩),
    (0x0208112441B94F58, .vsubI32 ⟨2, 8, 18, 16, 55, 20, 7, 5, 3, 0⟩),
    (0x0208122645B15150, .vmulI32 ⟨2, 8, 19, 17, 54, 21, 0, 5, 2, 0⟩),
    (0x0208132849A96348, .vmulhI32 ⟨2, 8, 20, 18, 53, 22, 1, 5, 1, 0⟩),
    (0x0208142A4DA17580, .vmulhN32 ⟨2, 8, 21, 19, 52, 23, 2, 6, 0, 0⟩),
    (0x0208152C519987A8, .vdivI32 ⟨2, 8, 22, 20, 51, 24, 3, 6, 5, 0⟩),
    (0x0208162E559199A0, .vdivN32 ⟨2, 8, 23, 21, 50, 25, 4, 6, 4, 0⟩),
    (0x020817305989ABD8, .vminI32 ⟨2, 8, 24, 22, 49, 26, 5, 7, 3, 0⟩),
    (0x020818325D81BDD0, .vmaxI32 ⟨2, 8, 25, 23, 48, 27, 6, 7, 2, 0⟩),
    (0x020819346179CFC8, .vminN32 ⟨2, 8, 26, 24, 47, 28, 7, 7, 1, 0⟩),
    (0x02081A366571D000, .vmaxN32 ⟨2, 8, 27, 25, 46, 29, 0, 0, 0, 0⟩),
    (0x02081B386969E228, .vaddsI32 ⟨2, 8, 28, 26, 45, 30, 1, 0, 5, 0⟩)] : List (W64 × Instr)),
    decodeEntry .v e.1 [] = some e.2 := by decide +kernel

/-- Command words of V, by R164, R167 and R169. -/
theorem test_decodeVBit : ∀ e ∈ ([
    (0x0208203A6D61F420, .vand ⟨2, 8, 29, 27, 44, 31, 2, 0, 4, 0⟩),
    (0x0208213C715A0658, .vor ⟨2, 8, 30, 28, 43, 32, 3, 1, 3, 0⟩),
    (0x0208223E75521850, .vxor ⟨2, 8, 31, 29, 42, 33, 4, 1, 2, 0⟩),
    (0x02082340794A2A48, .vandn ⟨2, 8, 32, 30, 41, 34, 5, 1, 1, 0⟩),
    (0x020824427D423C80, .vsll ⟨2, 8, 33, 31, 40, 35, 6, 2, 0, 0⟩),
    (0x02082544813A4EA8, .vsrl ⟨2, 8, 34, 32, 39, 36, 7, 2, 5, 0⟩),
    (0x02082646853250A0, .vsra ⟨2, 8, 35, 33, 38, 37, 0, 2, 4, 0⟩),
    (0x02082748892A62D8, .vclz ⟨2, 8, 36, 34, 37, 38, 1, 3, 3, 0⟩),
    (0x0208284A8D2274D0, .vclmul ⟨2, 8, 37, 35, 36, 39, 2, 3, 2, 0⟩),
    (0x0208294C911A86C8, .vclmulh ⟨2, 8, 38, 36, 35, 40, 3, 3, 1, 0⟩)] : List (W64 × Instr)),
    decodeEntry .v e.1 [] = some e.2 := by decide +kernel

/-- Command words of V, by R164, R167 and R169. -/
theorem test_decodeVFloat : ∀ e ∈ ([
    (0x0208304E95129900, .vaddF32 ⟨2, 8, 39, 37, 34, 41, 4, 4, 0, 0⟩),
    (0x02083150990AAB28, .vsubF32 ⟨2, 8, 40, 38, 33, 42, 5, 4, 5, 0⟩),
    (0x020832529D02BD20, .vmulF32 ⟨2, 8, 41, 39, 32, 43, 6, 4, 4, 0⟩),
    (0x02083354A0FACF58, .vfmaF32 ⟨2, 8, 42, 40, 31, 44, 7, 5, 3, 0⟩),
    (0x02083456A4F2D150, .vfmsF32 ⟨2, 8, 43, 41, 30, 45, 0, 5, 2, 0⟩),
    (0x02083558A8EAE348, .vdivF32 ⟨2, 8, 44, 42, 29, 46, 1, 5, 1, 0⟩),
    (0x0208365AACE2F580, .vsqrtF32 ⟨2, 8, 45, 43, 28, 47, 2, 6, 0, 0⟩),
    (0x0208375CB0DB07A8, .vminF32 ⟨2, 8, 46, 44, 27, 48, 3, 6, 5, 0⟩),
    (0x0208385EB4D319A0, .vmaxF32 ⟨2, 8, 47, 45, 26, 49, 4, 6, 4, 0⟩),
    (0x02083960B8CB2BD8, .vabsF32 ⟨2, 8, 48, 46, 25, 50, 5, 7, 3, 0⟩),
    (0x02083A62BCC33DD0, .vnegF32 ⟨2, 8, 49, 47, 24, 51, 6, 7, 2, 0⟩),
    (0x02083B64C0BB4FC8, .vexp2F32 ⟨2, 8, 50, 48, 23, 52, 7, 7, 1, 0⟩)] : List (W64 × Instr)),
    decodeEntry .v e.1 [] = some e.2 := by decide +kernel

/-- Command words of V, by R164, R167 and R169. -/
theorem test_decodeVCompare : ∀ e ∈ ([
    (0x02084066C4B35000, .vcmpEqI32 ⟨2, 8, 51, 49, 22, 53, 0, 0, 0, 0⟩),
    (0x02084168C8AB6228, .vcmpLtI32 ⟨2, 8, 52, 50, 21, 54, 1, 0, 5, 0⟩),
    (0x0208426A04A05420, .vcmpLeI32 ⟨2, 8, 53, 1, 20, 5, 2, 0, 4, 0⟩),
    (0x0208436C08986658, .vcmpLtN32 ⟨2, 8, 54, 2, 19, 6, 3, 1, 3, 0⟩),
    (0x0208446E0C907850, .vcmpEqF32 ⟨2, 8, 55, 3, 18, 7, 4, 1, 2, 0⟩),
    (0x0208457010888A48, .vcmpLtF32 ⟨2, 8, 56, 4, 17, 8, 5, 1, 1, 0⟩),
    (0x0208467214809C80, .vcmpLeF32 ⟨2, 8, 57, 5, 16, 9, 6, 2, 0, 0⟩),
    (0x020847741878AEA8, .vcmpUnF32 ⟨2, 8, 58, 6, 15, 10, 7, 2, 5, 0⟩)] : List (W64 × Instr)),
    decodeEntry .v e.1 [] = some e.2 := by decide +kernel

/-- Command words of V, by R164, R167 and R169. -/
theorem test_decodeVConvert : ∀ e ∈ ([
    (0x020850761C70B0A0, .vcvtF32I32 ⟨2, 8, 59, 7, 14, 11, 0, 2, 4, 0⟩),
    (0x020851782068C2D8, .vcvtI32F32 ⟨2, 8, 60, 8, 13, 12, 1, 3, 3, 0⟩),
    (0x0208527A2460D4D0, .vcvtF32F16 ⟨2, 8, 61, 9, 12, 13, 2, 3, 2, 0⟩),
    (0x0208537C2858E6C8, .vcvtF32Bf16 ⟨2, 8, 62, 10, 11, 14, 3, 3, 1, 0⟩),
    (0x020854062E30F900, .vcvtF16F32 ⟨2, 8, 3, 11, 70, 15, 4, 4, 0, 0⟩),
    (0x0208550832290B28, .vcvtBf16F32 ⟨2, 8, 4, 12, 69, 16, 5, 4, 5, 0⟩),
    (0x0208560A36211D20, .vnarrow ⟨2, 8, 5, 13, 68, 17, 6, 4, 4, 0⟩),
    (0x0208570C3A192F58, .vwiden ⟨2, 8, 6, 14, 67, 18, 7, 5, 3, 0⟩)] : List (W64 × Instr)),
    decodeEntry .v e.1 [] = some e.2 := by decide +kernel

/-- Command words of V, by R164, R167 and R169. -/
theorem test_decodeVMove : ∀ e ∈ ([
    (0x0208600E3E113150, .vperm ⟨2, 8, 7, 15, 66, 19, 0, 5, 2, 0⟩),
    (0x0208611042094348, .vslideup ⟨2, 8, 8, 16, 65, 20, 1, 5, 1, 0⟩),
    (0x0208621246015580, .vslidedn ⟨2, 8, 9, 17, 64, 21, 2, 6, 0, 0⟩),
    (0x0208631449F967A8, .vbcast ⟨2, 8, 10, 18, 63, 22, 3, 6, 5, 0⟩),
    (0x020864164DF179A0, .vmov ⟨2, 8, 11, 19, 62, 23, 4, 6, 4, 0⟩)] : List (W64 × Instr)),
    decodeEntry .v e.1 [] = some e.2 := by decide +kernel

/-- Command words of V, by R164, R167 and R169. -/
theorem test_decodeVReduce : ∀ e ∈ ([
    (0x0208701851E98BD8, .vredaddF32 ⟨2, 8, 12, 20, 61, 24, 5, 7, 3, 0⟩),
    (0x0208711A55E19DD0, .vredaddF64 ⟨2, 8, 13, 21, 60, 25, 6, 7, 2, 0⟩),
    (0x0208721C59D9AFC8, .vredmaxF32 ⟨2, 8, 14, 22, 59, 26, 7, 7, 1, 0⟩),
    (0x0208731E5DD1B000, .vredaddI32 ⟨2, 8, 15, 23, 58, 27, 0, 0, 0, 0⟩),
    (0x0208742061C9C228, .vtopk ⟨2, 8, 16, 24, 57, 28, 1, 0, 5, 0⟩)] : List (W64 × Instr)),
    decodeEntry .v e.1 [] = some e.2 := by decide +kernel

/-- Command words of V, by R164, R167 and R169. -/
theorem test_decodeVCoder : ∀ e ∈ ([
    (0x0208802265C1D420, .rcinitD ⟨2, 8, 17, 25, 56, 29, 2, 0, 4, 0⟩),
    (0x0208802469B9E659, .rcinitE ⟨2, 8, 18, 26, 55, 30, 3, 1, 3, 1⟩),
    (0x020881266DB1F850, .rcfin ⟨2, 8, 19, 27, 54, 31, 4, 1, 2, 0⟩),
    (0x0208822871AA0A48, .rcstat ⟨2, 8, 20, 28, 53, 32, 5, 1, 1, 0⟩),
    (0x0208832A75A21C80, .rcdec ⟨2, 8, 21, 29, 52, 33, 6, 2, 0, 0⟩),
    (0x0208842C799A2EA8, .rcdecm ⟨2, 8, 22, 30, 51, 34, 7, 2, 5, 0⟩),
    (0x0208852E7D9230A0, .rcenc ⟨2, 8, 23, 31, 50, 35, 0, 2, 4, 0⟩),
    (0x02088630818A42D8, .rcencm ⟨2, 8, 24, 32, 49, 36, 1, 3, 3, 0⟩),
    (0x02088732858254D0, .rckpt ⟨2, 8, 25, 33, 48, 37, 2, 3, 2, 0⟩),
    (0x02088834897A66C8, .rcroll ⟨2, 8, 26, 34, 47, 38, 3, 3, 1, 0⟩),
    (0x020889368D727900, .qsq ⟨2, 8, 27, 35, 46, 39, 4, 4, 0, 0⟩),
    (0x02088A38916A8B28, .qmov ⟨2, 8, 28, 36, 45, 40, 5, 4, 5, 0⟩),
    (0x02088B3A95629D20, .qadapt ⟨2, 8, 29, 37, 44, 41, 6, 4, 4, 0⟩),
    (0x02088C3C995AAF58, .cdfsw ⟨2, 8, 30, 38, 43, 42, 7, 5, 3, 0⟩)] : List (W64 × Instr)),
    decodeEntry .v e.1 [] = some e.2 := by decide +kernel

/-- Command words of format E with their extension words, by R164, R165, R168 and R170. -/
theorem test_decodeLoadEngine : ∀ e ∈ ([
    (0x100102569C016220, [], .lEnop ⟨16, 1, 363266136, 8, 4, 0⟩),
    (0x100110569C116669, [0xFF12345678900059, 0xFF1234567891005A, 0xFF1234567892005B], .lstrm ⟨16, 1, 363267161, 9, 5, 1⟩ 0x12345678900059 0x1234567891005A 0x1234567892005B),
    (0x100111569C216A80, [0xFF1234567890005A, 0xFF1234567891005B, 0xFF1234567892005C], .lgathBm ⟨16, 1, 363268186, 10, 0, 0⟩ 0x1234567890005A 0x1234567891005B 0x1234567892005C),
    (0x100112569C316EC9, [0xFF1234567890005B, 0xFF1234567891005C, 0xFF1234567892005D], .lgathRl ⟨16, 1, 363269211, 11, 1, 1⟩ 0x1234567890005B 0x1234567891005C 0x1234567892005D),
    (0x100113569C417310, [0xFF1234567890005C, 0xFF1234567891005D], .lcbx ⟨16, 1, 363270236, 12, 2, 0⟩ 0x1234567890005C 0x1234567891005D),
    (0x100114569C517759, [0xFF1234567890005D], .lcbtab ⟨16, 1, 363271261, 13, 3, 1⟩ 0x1234567890005D),
    (0x100115569C617BA0, [0xFF1234567890005E, 0xFF1234567891005F], .lpkld ⟨16, 1, 363272286, 14, 4, 0⟩ 0x1234567890005E 0x1234567891005F),
    (0x100116569C717FE9, [0xFF1234567890005F, 0xFF12345678910060, 0xFF12345678920061], .lbmg ⟨16, 1, 363273311, 15, 5, 1⟩ 0x1234567890005F 0x12345678910060 0x12345678920061)] : List (W64 × List W64 × Instr)),
    decodeEntry .l e.1 e.2.1 = some e.2.2 := by decide +kernel

/-- Command words of format E with their extension words, by R164, R165, R168 and R170. -/
theorem test_decodeStoreEngine : ∀ e ∈ ([
    (0x100101569C818000, [], .wSetrm ⟨16, 1, 363274336, 0, 0, 0⟩),
    (0x100102569C918449, [], .wEnop ⟨16, 1, 363275361, 1, 1, 1⟩),
    (0x100110569CA18890, [0xFF12345678900062, 0xFF12345678910063, 0xFF12345678920064], .wstrm ⟨16, 1, 363276386, 2, 2, 0⟩ 0x12345678900062 0x12345678910063 0x12345678920064),
    (0x100111569CB18CD9, [0xFF12345678900063, 0xFF12345678910064], .wpkst ⟨16, 1, 363277411, 3, 3, 1⟩ 0x12345678900063 0x12345678910064),
    (0x100112569CC19120, [0xFF12345678900064, 0xFF12345678910065, 0xFF12345678920066], .wscat ⟨16, 1, 363278436, 4, 4, 0⟩ 0x12345678900064 0x12345678910065 0x12345678920066)] : List (W64 × List W64 × Instr)),
    decodeEntry .w e.1 e.2.1 = some e.2.2 := by decide +kernel

/-- Command words of format E with their extension words, by R164, R165, R168 and R170. -/
theorem test_decodeMatrixEngine : ∀ e ∈ ([
    (0x100101569CD19569, [], .mSetrm ⟨16, 1, 363279461, 5, 5, 1⟩),
    (0x100102569CE19980, [], .mEnop ⟨16, 1, 363280486, 6, 0, 0⟩),
    (0x100110569CF19DC9, [], .mlease ⟨16, 1, 363281511, 7, 1, 1⟩),
    (0x100111569D01A210, [], .mrel ⟨16, 1, 363282536, 8, 2, 0⟩),
    (0x100112569D11A659, [0xFF12345678900069], .mmul ⟨16, 1, 363283561, 9, 3, 1⟩ 0x12345678900069),
    (0x100113569D21AAA0, [0xFF1234567890006A, 0xFF1234567891006B], .mmul2 ⟨16, 1, 363284586, 10, 4, 0⟩ 0x1234567890006A 0x1234567891006B),
    (0x100114569D31AEE9, [0xFF1234567890006B, 0xFF1234567891006C], .mdrain ⟨16, 1, 363285611, 11, 5, 1⟩ 0x1234567890006B 0x1234567891006C),
    (0x100115569D41B300, [], .mzero ⟨16, 1, 363286636, 12, 0, 0⟩)] : List (W64 × List W64 × Instr)),
    decodeEntry .m e.1 e.2.1 = some e.2.2 := by decide +kernel

/-- Command words of format E with their extension words, by R164, R165, R168 and R170. -/
theorem test_decodeCopyEngine : ∀ e ∈ ([
    (0x100101569D51B749, [], .cSetrm ⟨16, 1, 363287661, 13, 1, 1⟩),
    (0x100102569D61BB90, [], .cEnop ⟨16, 1, 363288686, 14, 2, 0⟩),
    (0x100110569D71BFD9, [0xFF1234567890006F, 0xFF12345678910070], .ccopy ⟨16, 1, 363289711, 15, 3, 1⟩ 0x1234567890006F 0x12345678910070),
    (0x100111569D81C020, [0xFF12345678900070, 0xFF12345678910071, 0xFF12345678920072], .cwin ⟨16, 1, 363290736, 0, 4, 0⟩ 0x12345678900070 0x12345678910071 0x12345678920072),
    (0x100112569D91C469, [0xFF12345678900071, 0xFF12345678910072], .cadd ⟨16, 1, 363291761, 1, 5, 1⟩ 0x12345678900071 0x12345678910072),
    (0x100113569DA1C880, [0xFF12345678900072], .caccld ⟨16, 1, 363292786, 2, 0, 0⟩ 0x12345678900072),
    (0x100114569DB1CCC9, [0xFF12345678900073], .caccst ⟨16, 1, 363293811, 3, 1, 1⟩ 0x12345678900073),
    (0x100115569DC1D110, [0xFF12345678900074], .cexp ⟨16, 1, 363294836, 4, 2, 0⟩ 0x12345678900074),
    (0x100116569DD1D559, [0xFF12345678900075], .carr ⟨16, 1, 363295861, 5, 3, 1⟩ 0x12345678900075)] : List (W64 × List W64 × Instr)),
    decodeEntry .c e.1 e.2.1 = some e.2.2 := by decide +kernel

/-- Words that are no instruction: R163, R171. -/
theorem test_decodeRefuses : decodeScalar 0 = none ∧ decodeScalar 0xFFFFFFFF = none ∧ decodeScalar 0x00400063 = none ∧ decodeScalar 0x1FC00000 = none ∧
    decodeEntry .v 0 [] = none ∧ decodeEntry .v 0x0000FF0000000000 [] = none ∧ decodeEntry .l 0x0000010000000000 [] = none ∧
    decodeEntry .w 0x0000130000000000 [] = none ∧ decodeEntry .m 0x0000160000000000 [] = none ∧ decodeEntry .c 0x0000170000000000 [] = none ∧
    decodeEntry .m 0x0000120000000000 [] = none ∧ decodeEntry .m 0x0000120000000000 [0] = none := by decide +kernel

/-! ### Witnesses: small states that meet the hypotheses of the statements, a clause at a time -/

/-- Core 0 runs a detached strand, and it is S's turn. -/
def run0 : State := State.reset.modCore 0 fun k => { k with mir := { k.mir with st := .running }, pr := { k.pr with bound := false } }
/-- The same with the window open (R383). -/
def open0 : State := { run0 with sys := { run0.sys with stage := 5 } }
/-- Scalar registers, predicates (bit 0 stays set), the pc. -/
def withX (l : SMap W64) (s : State) : State := s.modS 0 fun u => { u with x := l }
def withP (p : BitVec 8) (s : State) : State := s.modS 0 fun u => { u with p := p }
def bound0 (s : State) : State := s.modPr 0 fun p => { p with bound := true }
/-- A number of n bytes at a physical address. -/
def withMem (pa v n : Nat) (s : State) : State := { s with mem := memPutNat s.mem pa v n }
def withFull (pa : Nat) (s : State) : State := setFull s (pa / 16) none
/-- An engine of core 0 has the turn. -/
def turnOf (e : Nat) (s : State) : State := { s with cur := (0, e) }
/-- The bases of the windows (R73). -/
def coreWin : Nat := 0x000FFFFFFFF80000
def clusterWin : Nat := 0x000FFFFFFF000000

/-- A decidable form of reaches. -/
def reachB (s : State) (va w : Nat) (write : Bool) (pa : Nat) : Bool :=
  (match place s (whoS s s.cur.1) va write false with | .ok p _ => decide (p.pa = pa) | _ => false) &&
    !watermarkStall s (whoS s s.cur.1) pa w && !rangePoisoned s pa w && (mapFind (pa / 64) s.shadow).isNone

theorem reaches_of {s : State} {va w pa : Nat} {write : Bool} (h : reachB s va w write pa = true) : reaches s va w write pa := by
  unfold reachB at h
  simp only [Bool.and_eq_true, Bool.not_eq_true', Option.isNone_iff_eq_none] at h
  obtain ⟨⟨⟨h1, h2⟩, h3⟩, h4⟩ := h
  refine ⟨?_, h2, h3, h4⟩
  cases hp : place s (whoS s s.cur.1) va write false with
  | ok p t => rw [hp] at h1; exact ⟨p, t, rfl, of_decide_eq_true h1⟩
  | trap c i t => rw [hp] at h1; exact absurd h1 (by simp)
  | stall m => rw [hp] at h1; exact absurd h1 (by simp)
  | miss a b c => rw [hp] at h1; exact absurd h1 (by simp)

/-- The page at 0x10000 of context 0 maps device memory at 0x20000, writable and executable, by four levels of tables (R356). -/
def paged (s : State) : State :=
  { s.modCtx 0 fun x => { x with ptroot := 0x100000, live := true } with
    mem := [(0x100000, 1), (0x100002, 0x11), (0x110000, 1), (0x110001, 0x10), (0x110002, 0x11), (0x111000, 1), (0x111001, 0x20), (0x111002, 0x11), (0x112008, 0x0F), (0x11200A, 2)] }

theorem test_witness_IntegerResults : run0.pred 0 = true ∧ (withP 0x81 run0).pred 7 = true := by decide +kernel
theorem test_witness_CompareAndPredicateResults : run0.pred 0 = true ∧ (withP 0x81 run0).pred 7 = true := by decide +kernel
theorem test_witness_FalseGuardHasNoEffect : run0.pred 1 = false ∧ (withP 0x7F run0).pred 7 = false ∧ run0.me.pr.bound = false ∧
    crDecode run0 run0.cur.1 (0x010#12).toNat 0 false = none ∧ crDecode run0 run0.cur.1 (0x012#12).toNat 0 true = none := by decide +kernel

/-- Clauses: forward and taken, backward for the first time, not taken; detached, and bound under p0. -/
theorem test_witness_BranchTarget :
    (run0.me.pr.bound = false ∧ run0.pred 0 = true ∧ (0x1FFFFF#22).msb = false) ∧
    ((0x3FFFFF#22).msb = true ∧ run0.me.su.spin.valid = false) ∧ run0.pred 3 = false ∧
    ((bound0 run0).me.pr.bound = true ∧ (bound0 run0).pred 0 = true) := by decide +kernel

/-- A full return-address store but for one place, good targets at the ends of the windows, an empty store, and both traps. -/
theorem test_witness_CallAndReturn :
    let s := withX [(1, 0x000FFFFEFFFFFFFC), (2, 0x0010000000000000), (3, 0x000FFFFFFF7FFFFE)] (run0.modS 0 fun u => { u with ras := List.replicate 15 8 })
    (s.pred 0 = true ∧ s.me.pr.bound = false) ∧ s.me.su.ras.length < 16 ∧
    (spaceOf (s.x 1).toNat ≠ none ∧ (s.x 1).toNat % 4 = 0) ∧ s.me.su.ras = List.replicate 14 8 ++ [8] ∧
    (run0.me.su.ras = [] ∧ run0.me.su.rspill.toNat / 2 ^ 52 = 0) ∧
    spaceOf (s.x 2).toNat = none ∧ (spaceOf (s.x 3).toNat ≠ none ∧ (s.x 3).toNat % 4 ≠ 0) := by decide +kernel

theorem test_witness_VotingPointsVote :
    let s := withX [(3, 0x1000)] (bound0 run0)
    let u := (withP 0x81 s).modS 0 fun x => { x with ras := List.replicate 15 8, inh := true }
    (s.me.pr.bound = true ∧ s.pred 2 = false ∧ s.pred 0 = true ∧ spaceOf (s.x 3).toNat ≠ none ∧ (s.x 3).toNat % 4 = 0) ∧
      u.me.pr.bound = true ∧ u.pred 7 = true ∧ (7#3) ≠ 0 ∧ u.me.su.ras.length < 16 ∧ (spaceOf (u.x 3).toNat ≠ none ∧ (u.x 3).toNat % 4 = 0) ∧ u.me.su.ras = List.replicate 14 8 ++ [8] ∧ u.me.su.inh = true := by decide +kernel

theorem test_witness_DetachedDetachAndJoin :
    let s := run0.modCluster 0 fun u => { u with fe := { u.fe with log := [0], count := 1 } }
    (s.me.pr.bound = false ∧ s.pred 0 = true) ∧ joinLate s s.cur.1 s.me.su.pc = true ∧
      (run0.me.pr.bound = false ∧ joinLate run0 run0.cur.1 run0.me.su.pc = false) := by decide +kernel

/-- With a handler enabled and without, INH set and clear. -/
theorem test_witness_TrapEntryAndReturn :
    let s := (run0.modCtx 0 fun x => { x with tven := true }).modS 0 fun u => { u with inh := true }
    (s.pred 0 = true ∧ s.me.pr.bound = false ∧ s.me.su.inh = true) ∧
      (run0.me.su.inh = false ∧ run0.me.pr.bound = false ∧ (run0.ctxOf run0.cur.1).tven = false) := by decide +kernel

/-- The last eight bytes of the core's memory for a `.wc` form, full and empty, and a byte of the cluster's for a plain one. -/
theorem test_witness_LoadResults :
    let s := withFull (coreBase 0 + 0x7FFF8) (withX [(3, BitVec.ofNat 64 (coreWin + 0x7FFF8 - 255 * 8)), (4, BitVec.ofNat 64 clusterWin)] run0)
    (s.pred 0 = true ∧ memAt s 3 255 8 % 8 = 0 ∧ (coreBase 0 + 0x7FFF8) % 8 = 0 ∧ uncached s (coreBase 0 + 0x7FFF8) ∧
      spaceOf (memAt s 3 255 8) = some .core ∧ fullAt s (coreBase 0 + 0x7FFF8) = true) ∧ reaches s (memAt s 3 255 8) 8 false (coreBase 0 + 0x7FFF8) ∧
    memAt s 4 1 1 % 1 = 0 ∧ reaches s (memAt s 4 1 1) 1 false (clusterBase 0 + 1) ∧ uncached s (clusterBase 0 + 1) ∧
    coreBase 0 + 0x7FFF8 = coreBase s.cur.1 + (memAt s 3 255 8 - 0x000FFFFFFFF80000) ∧ fullAt run0 (coreBase 0 + 0x7FFF8) = false :=
  ⟨by unfold uncached; decide +kernel, reaches_of (by decide +kernel), by decide +kernel, reaches_of (by decide +kernel), by unfold uncached; decide +kernel, by decide +kernel, by decide +kernel⟩

theorem test_witness_StoreResults :
    let s := withX [(3, BitVec.ofNat 64 coreWin), (4, BitVec.ofNat 64 (clusterWin + 0x7FFFFF))] run0
    s.pred 0 = true ∧ memAt s 3 0 8 % 8 = 0 ∧ spaceOf (memAt s 3 0 8) = some .core ∧ reaches s (memAt s 3 0 8) 8 true (coreBase 0) ∧
      memAt s 4 0 1 % 1 = 0 ∧ reaches s (memAt s 4 0 1) 1 true (clusterBase 0 + 0x7FFFFF) :=
  ⟨by decide +kernel, by decide +kernel, by decide +kernel, reaches_of (by decide +kernel), by decide +kernel, reaches_of (by decide +kernel)⟩

theorem test_witness_AtomicResults :
    let s := withX [(3, BitVec.ofNat 64 (coreWin + 0x7FFF8))] run0
    s.pred 0 = true ∧ memAt s 3 0 8 % 8 = 0 ∧ (s.x 3).toNat % 4 = 0 ∧
      reaches s (memAt s 3 0 8) 8 false (coreBase 0 + 0x7FFF8) ∧ reaches s (s.x 3).toNat 8 true (coreBase 0 + 0x7FFF8) :=
  ⟨by decide +kernel, by decide +kernel, by decide +kernel, reaches_of (by decide +kernel), reaches_of (by decide +kernel)⟩

/-- Outside every window, a full-empty form outside core memory, misaligned; where an address is two of these the earlier one is taken. -/
theorem test_witness_AccessTraps :
    let s := withX [(3, 0x000FFFFFFF800001), (4, 0x000FFFFFFF7FFFFF), (5, 0x000FFFFFFFF80001)] run0
    s.pred 0 = true ∧ spaceOf (memAt s 3 0 8) = none ∧ (spaceOf (memAt s 4 0 8) ≠ none ∧ spaceOf (memAt s 4 0 8) ≠ some .core) ∧
      (spaceOf (memAt s 5 0 8) = some .core ∧ memAt s 5 0 8 % 8 ≠ 0) ∧ (spaceOf (s.x 3).toNat = none) ∧
      (spaceOf (s.x 5).toNat ≠ none ∧ (s.x 5).toNat % 4 ≠ 0) := by decide +kernel

theorem test_witness_FenceEffects : run0.pred 0 = true ∧ (4#3).toNat < 5 ∧ 2 ≤ (2#3).toNat ∧ (1#16) ≠ 0 ∧ 5 ≤ (5#3).toNat := by decide +kernel

/-- Values at the ends of the fields, a privileged strand and one that is not, INH set and clear. -/
theorem test_witness_ControlRegisters :
    let s := withX [(3, 15), (4, 0x000FFFFFFFFFFFFC), (5, 0x000FFFFFFFFFFFF0)] ((run0.modCtx 0 fun x => { x with priv := true }).modS 0 fun u => { u with inh := true })
    s.pred 0 = true ∧ (s.x 3).toNat % 2 ^ 32 < 16 ∧ (s.ctxOf s.cur.1).priv = true ∧ ((s.x 4).toNat < 2 ^ 52 ∧ (s.x 4).toNat % 4 = 0) ∧
      ((s.x 5).toNat < 2 ^ 52 ∧ (s.x 5).toNat % 16 = 0) ∧ s.me.su.inh = true ∧ (run0.ctxOf run0.cur.1).priv = false ∧ run0.me.su.inh = false := by decide +kernel

/-- Engine 1 has a ring and is idle, engine 6 has none; a forked engine that is idle and one that is not. -/
theorem test_witness_ForkAndRdv :
    let ring (e : Nat) (f : Ring → Ring) (s : State) : State := s.modEng 0 e fun g => { g with ring := f { g.ring with declared := true } }
    let s := ring 1 id run0
    let u := ring 2 (fun r => { r with forked := true, tail := 1 }) (ring 1 (fun r => { r with forked := true }) run0)
    let named (m : BitVec 6) (e : Nat) : Prop := 1 ≤ e ∧ e ≤ 6 ∧ m.getLsbD (e - 1) = true
    s.pred 0 = true ∧ (∀ e, named 1 e → (s.me.engine e).ring.declared = true ∧ (s.me.engine e).ring.forked = false) ∧
      (named 0x20 6 ∧ (s.me.engine 6).ring.declared = false) ∧
      ((∀ e, named 1 e → (u.me.engine e).ring.declared = true) ∧ named 1 1 ∧ (u.me.engine 1).ring.forked = true) ∧
      (∀ e, named 1 e → (u.me.engine e).ring.forked = true → engineIdle u u.cur.1 e = true) ∧
      (named 2 2 ∧ (u.me.engine 2).ring.forked = true ∧ engineIdle u u.cur.1 2 = false) := by
  have one : ∀ e : Nat, 1 ≤ e ∧ e ≤ 6 ∧ (1#6).getLsbD (e - 1) = true → e = 1 := by
    intro e ⟨h1, h2, h3⟩
    have : e < 7 := by omega
    revert h1 h3; revert e; decide
  refine ⟨by decide +kernel, ?_, by decide +kernel, ⟨?_, by decide +kernel, by decide +kernel⟩, ?_, by decide +kernel⟩
  · intro e h; rw [one e h]; decide +kernel
  · intro e h; rw [one e h]; decide +kernel
  · intro e h _; rw [one e h]; decide +kernel

/-- Queues with 14 tokens, with 15, with one and with none, to the engines and to the network. -/
theorem test_witness_TokensOfS :
    let tok (n : Nat) (a b : Nat) : State := run0.modQ 0 fun q => { q with tok := mapSet (8 * a + b) (List.replicate n ⟨Rel.none, 0⟩) q.tok, net := [⟨Rel.none, 0⟩] }
    let late : State := run0.modS 0 fun u => { u with performed := 140 }
    let far : State := run0.modS 0 fun u => { u with farDone := 140 }
    let two (l : List Rel) : State := (run0.modCore 7 fun k => { k with mir := { k.mir with st := .running }, q := { k.q with arrivals := l } })
    (run0.pred 0 = true ∧ run0.me.mir.st = .running ∧ run0.cur.1 < 1280) ∧ (late.pred 0 = true ∧ late.me.mir.st = .running ∧ late.allPerformed = false ∧ far.allPerformed = false) ∧
      (tok 14 0 6).allPerformed = true ∧ run0.allPerformed = true ∧ ((two []).allPerformed = true ∧ ∃ m ∈ members (two []) 0 (two []).me.kern, m ≠ 0 ∧ ((two []).strand m).q.arrivals = []) ∧
      ((two [Rel.none]).allPerformed = true ∧ (∀ m ∈ members (two [Rel.none]) 0 (two [Rel.none]).me.kern, m ≠ 0 → ((two [Rel.none]).strand m).q.arrivals ≠ []) ∧ (two [Rel.none]).me.q.arrivals = []) ∧ ((tok 14 0 6).me.tokens 0 (6#3).toNat).length < 15 ∧ 15 ≤ ((tok 15 0 6).me.tokens 0 (6#3).toNat).length ∧
      (tok 1 6 0).me.tokens (6#3).toNat 0 = ⟨Rel.none, 0⟩ :: [] ∧ run0.me.tokens (6#3).toNat 0 = [] ∧
      (tok 1 6 0).me.q.net = ⟨Rel.none, 0⟩ :: [] ∧ run0.me.q.net = [] ∧ (⟨Rel.none, 0⟩ : Tok).ready ≤ run0.me.cy := by decide +kernel

/-- A fed ring with one free word and a full one, a static one, none; a fed ring of V, empty and not; an inbox entry, one that is not ready yet, and none. -/
theorem test_witness_EngineData :
    let ring (e : Nat) (f : Ring → Ring) (s : State) : State := s.modEng 0 e fun g => { g with ring := f { g.ring with declared := true } }
    let free (r : Ring) : Nat := (r.tail + 2 * r.size - r.head) % (2 * r.size)
    let s := ring 6 (fun r => { r with tail := 15 }) (run0.modQ 0 fun q => { q with inbox := [⟨7, 4, 0⟩] })
    let r := (s.me.engine 6).ring
    s.pred 0 = true ∧ (r.declared = true ∧ r.isStatic = false ∧ free r < r.size ∧ watermarkStall s (whoS s s.cur.1) (coreBase s.cur.1 + r.base + 8 * (r.tail % r.size)) 8 = false ∧
        mapFind ((coreBase s.cur.1 + r.base + 8 * (r.tail % r.size)) / 64) s.shadow = none) ∧
      (let t := ring 6 (fun r => { r with tail := 16 }) run0; (t.me.engine 6).ring.size ≤ free (t.me.engine 6).ring) ∧
      (s.me.engine 1).ring.declared = false ∧ ((ring 1 (fun r => { r with isStatic := true }) run0).me.engine 1).ring.isStatic = true ∧
      (((ring 4 id run0).me.engine 4).ring.declared = true ∧ ((ring 4 id run0).me.engine 4).ring.isStatic = false ∧ vDrained (ring 4 id run0).me = true ∧
        vDrained (ring 4 (fun r => { r with tail := 1 }) run0).me = false) ∧
      (s.me.engine 4).ring.declared = false ∧ s.me.q.inbox = ⟨7, 4, 0⟩ :: [] ∧ (⟨7, 4, 0⟩ : InEnt).ready ≤ s.me.cy ∧
      ∀ t ∈ [run0, run0.modQ 0 fun q => { q with inbox := [⟨7, 4, 9999⟩] }], ∀ x ∈ t.me.q.inbox.head?, t.me.cy < x.ready := by decide +kernel

/-- The image of an 8-bit tile of one row of 32 elements, for slot 4095; a used slot of generation 255 and a stale handle. -/
theorem test_witness_DescriptorSlots :
    let img := 256 ^ 28 + 32 * 256 ^ 24 + 32 * 256 ^ 20 + 256 ^ 16
    let s := withX [(1, 4095), (2, BitVec.ofNat 64 (coreWin + 0x7FFE0)), (3, 0xFF001), (4, 0x01001)] (withMem (coreBase 0 + 0x7FFE0) img 32
      (run0.modSlot 0 1 fun d => { d with valid := true, gen := 255 }))
    let pa := coreBase 0 + 0x7FFE0
    (s.pred 0 = true ∧ spaceOf (s.x 2).toNat = some .core ∧ (s.x 2).toNat % 16 = 0 ∧ (s.x 2).toNat ≤ 2 ^ 52 - 32) ∧
      reaches s (s.x 2).toNat 32 false pa ∧ reaches s (s.x 2).toNat 32 true pa ∧
      (((s.ctxOf s.cur.1).slot ((s.x 1).toNat % 4096)).valid = false ∧ descValid (descOf (memBytes s.mem pa 32)) = true ∧
        ((s.ctxOf s.cur.1).slot ((s.x 1).toNat % 4096)).inflight = 0) ∧
      (let u := s.modSlot 0 4095 fun d => { d with inflight := 1 }; (u.x 1).toNat % 4096 = 4095 ∧ ((u.ctxOf u.cur.1).slot 4095).valid = false ∧ ((u.ctxOf u.cur.1).slot 4095).inflight ≠ 0 ∧
        descValid (descOf (memBytes u.mem pa 32)) = true ∧ reachB u (u.x 2).toNat 32 false pa = true) ∧
      descValid (descOf (memBytes run0.mem pa 32)) = false ∧
      ((s.x 3).toNat < 2 ^ 20 ∧ ((s.ctxOf s.cur.1).slot ((s.x 3).toNat % 4096)).valid = true ∧ ((s.ctxOf s.cur.1).slot ((s.x 3).toNat % 4096)).gen = (s.x 3).toNat / 4096) ∧
      ((s.ctxOf s.cur.1).slot ((s.x 4).toNat % 4096)).gen ≠ (s.x 4).toNat / 4096 :=
  ⟨by decide +kernel, reaches_of (by decide +kernel), reaches_of (by decide +kernel), by decide +kernel, by decide +kernel, by decide +kernel, by decide +kernel, by decide +kernel⟩

/-- Objects at the end of the cluster's memory: of EXPECT 2 with none, one, and one arrived with PENDING 1; of EXPECT 0; PHASE 5 awaited or not. -/
theorem test_witness_BarrierObjects :
    let pa := clusterBase 0 + 0x7FFFF0
    let obj (e r p ph : Nat) : State := withX [(1, BitVec.ofNat 64 (clusterWin + 0x7FFFF0)), (2, 5)] (withMem pa (e + r * 256 ^ 2 + p * 256 ^ 4 + ph * 256 ^ 12) 16 run0)
    ((obj 2 0 0 5).pred 0 = true ∧ spaceOf ((obj 2 0 0 5).x 1).toNat = some .cluster ∧ ((obj 2 0 0 5).x 1).toNat % 16 = 0 ∧ ((obj 2 0 0 5).x 1).toNat + 16 ≤ 0x000FFFFFFF800000) ∧
      reaches (obj 2 0 0 5) ((obj 2 0 0 5).x 1).toNat 16 false pa ∧
      (expectAt (obj 2 0 (2 ^ 40 - 6) 5) pa ≠ 0 ∧ arrivedAt (obj 2 0 (2 ^ 40 - 6) 5) pa < expectAt (obj 2 0 (2 ^ 40 - 6) 5) pa ∧
        pendingAt (obj 2 0 (2 ^ 40 - 6) 5) pa + ((obj 2 0 (2 ^ 40 - 6) 5).x 2).toNat < 2 ^ 40) ∧
      arrivedAt (obj 2 0 0 5) pa + 1 < expectAt (obj 2 0 0 5) pa ∧ (arrivedAt (obj 2 1 1 5) pa + 1 = expectAt (obj 2 1 1 5) pa ∧ pendingAt (obj 2 1 1 5) pa ≠ 0) ∧
      (arrivedAt (obj 2 1 0 5) pa + 1 = expectAt (obj 2 1 0 5) pa ∧ pendingAt (obj 2 1 0 5) pa = 0) ∧ expectAt (obj 0 0 0 5) pa = 0 ∧
      phaseAt (obj 2 1 1 6) pa ≠ ((obj 2 1 1 6).x 2).toNat % 2 ^ 32 ∧ phaseAt (obj 2 1 1 5) pa = ((obj 2 1 1 5).x 2).toNat % 2 ^ 32 ∧
      (obj 2 1 1 5).me.su.wait ≠ .passed ∧ ((obj 2 1 1 5).modS 0 fun u => { u with wait := .passed }).me.su.wait = .passed := by
  refine ⟨by decide +kernel, reaches_of (by decide +kernel), ?_⟩
  unfold expectAt arrivedAt pendingAt phaseAt
  decide +kernel

theorem test_witness_ObjectTraps :
    let s := withX [(1, 0x0010000000000000), (2, BitVec.ofNat 64 coreWin), (3, BitVec.ofNat 64 (clusterWin + 8)), (4, BitVec.ofNat 64 (coreWin + 1)), (5, 0x108)] run0
    s.pred 0 = true ∧ s.me.su.wait ≠ .passed ∧ spaceOf (s.x 1).toNat = none ∧ (spaceOf (s.x 2).toNat ≠ none ∧ spaceOf (s.x 2).toNat ≠ some .cluster) ∧
      (spaceOf (s.x 3).toNat = some .cluster ∧ (s.x 3).toNat % 16 ≠ 0) ∧ (spaceOf (s.x 4).toNat = some .core ∧ (s.x 4).toNat % 16 ≠ 0) ∧
      (spaceOf (s.x 5).toNat = some .device ∧ (s.x 5).toNat % 16 ≠ 0) := by decide +kernel

/-- A decidable form of what an address resolves to. -/
def okPa (g : Got Place) (f : Place → State → Bool) : Bool := match g with | .ok p s => f p s | _ => false

theorem okPa_ex {g : Got Place} {f : Place → State → Bool} (h : okPa g f = true) : ∃ r t, g = .ok r t ∧ f r t = true := by
  cases g with
  | ok p s => exact ⟨p, s, rfl, h⟩
  | trap c i t => exact absurd h (by simp [okPa])
  | stall m => exact absurd h (by simp [okPa])
  | miss a b c => exact absurd h (by simp [okPa])

theorem okPa_all {g : Got Place} {f : Place → State → Bool} (h : okPa g f = true) : ∀ r t, g = .ok r t → f r t = true := by
  intro r t e; subst e; exact h

/-- A map of two sequences, two beams and two logical blocks in a page that the core's table holds; the last entry is set, and copied from the first. -/
theorem test_witness_BeamMaps :
    let s := withX [(1, 0x10000), (2, 0x0000000FFFFFFFFF), (3, beamIndex 1 1 1), (4, beamIndex 1 1 0), (5, beamIndex 0 0 0), (6, beamIndex 2 0 0)]
      (withMem 0x20000 (2 + 2 * 256 ^ 2 + 2 * 256 ^ 4) 16 (run0.modCluster 0 fun u => { u with ctlb := [(0, [⟨0, 0x10000, 65536, 0x20000, true, false, false⟩])] }))
    let t := s.modS 0 fun u => { u with steps := 1, bm := [2, 2, 2, 0] }
    let v := s.modS 0 fun u => { u with steps := 2, bm := [2, 2, 2, 0] }
    s.pred 0 = true ∧ mapThere s (s.x 1).toNat 0x20000 2 2 2 ∧ s.x 3 = beamIndex 1 1 1 ∧
      ((s.x 2).toNat / 2 ^ 36 % 2 ^ 25 = 0 ∧ watermarkStall s (whoS s s.cur.1) 0x20048 8 = false) ∧
      (∀ r t, place s (whoS s s.cur.1) (s.x 1).toNat false false = .ok r t →
        ∃ q u, place t (whoS t t.cur.1) (entryAt (s.x 1).toNat 2 2 1 1 1) true false = .ok q u ∧ q.pa = 0x20048) ∧
      mapThere t (t.x 1).toNat 0x20000 2 2 2 ∧
      (t.x 4 = beamIndex 1 1 0 ∧ t.x 5 = beamIndex 0 0 0 ∧ t.me.su.steps < 2 ∧ s.me.su.bm = [] ∧ t.me.su.bm = [2, 2, 2, 0] ∧ watermarkStall t (whoS t t.cur.1) 0x20018 8 = false ∧
        watermarkStall t (whoS t t.cur.1) 0x20048 8 = false ∧ rangePoisoned t 0x20018 8 = false) ∧
      (∀ u, afterHeader t (t.x 1).toNat u →
        ∃ q v, place u (whoS u u.cur.1) (entryAt (t.x 1).toNat 2 2 0 0 t.me.su.steps) false false = .ok q v ∧ q.pa = 0x20018 ∧
          ∃ q' w, place v (whoS v v.cur.1) (entryAt (t.x 1).toNat 2 2 1 1 t.me.su.steps) true false = .ok q' w ∧ q'.pa = 0x20048) ∧
      (∀ u, afterHeader s (s.x 1).toNat u → ∃ q v, place u (whoS u u.cur.1) (entryAt (s.x 1).toNat 2 2 0 0 s.me.su.steps) false false = .ok q v ∧ q.pa = 0x20010 ∧
          ∃ q' w, place v (whoS v v.cur.1) (entryAt (s.x 1).toNat 2 2 1 1 s.me.su.steps) true false = .ok q' w ∧ q'.pa = 0x20040) ∧
      (s.me.su.steps = 0 ∧ ∀ u, afterHeader s (s.x 1).toNat u → ∀ m, m < 2 → (∃ q v, place u (whoS u u.cur.1) (entryAt (s.x 1).toNat 2 2 0 0 m) false false = .ok q v ∧ rangePoisoned u q.pa 8 = false) ∧
          ∃ q v, place u (whoS u u.cur.1) (entryAt (s.x 1).toNat 2 2 1 1 m) true false = .ok q v) ∧
      mapThere v (v.x 1).toNat 0x20000 2 2 2 ∧ (v.x 4 = beamIndex 1 1 0 ∧ 2 ≤ v.me.su.steps) ∧
      (s.x 6 = beamIndex 2 0 0 ∧ (∃ r u, place s (whoS s s.cur.1) (s.x 1).toNat false false = .ok r u)) := by
  intro s t v
  have there : ∀ z : State, reachB z (z.x 1).toNat 16 false 0x20000 = true → spaceOf (z.x 1).toNat = some .device ∧ spaceOf ((z.x 1).toNat + 15) = some .device ∧
      (z.x 1).toNat % 16 = 0 ∧ memNat z.mem 0x20000 2 = 2 ∧ memNat z.mem 0x20002 2 = 2 ∧ memNat z.mem 0x20004 2 = 2 → mapThere z (z.x 1).toNat 0x20000 2 2 2 :=
    fun z h ⟨a, b, c, d, e, f⟩ => ⟨a, b, c, reaches_of h, d, e, f⟩
  refine ⟨by decide +kernel, there s (by decide +kernel) (by decide +kernel), by decide +kernel, by decide +kernel, ?_,
    there t (by decide +kernel) (by decide +kernel), by decide +kernel, ?_, ?_, ⟨by decide +kernel, ?_⟩, there v (by decide +kernel) (by decide +kernel), by decide +kernel, by decide +kernel, ?_⟩
  · have h : okPa (place s (whoS s s.cur.1) (s.x 1).toNat false false) (fun _ t => okPa (place t (whoS t t.cur.1) (entryAt (s.x 1).toNat 2 2 1 1 1) true false)
        fun q _ => decide (q.pa = 0x20048)) = true := by decide +kernel
    intro r t' e
    obtain ⟨q, u, h1, h2⟩ := okPa_ex (okPa_all h r t' e)
    exact ⟨q, u, h1, of_decide_eq_true h2⟩
  · have h : okPa (place t (whoS t t.cur.1) (entryAt (t.x 1).toNat 2 2 0 0 t.me.su.steps) false false)
        (fun q v => decide (q.pa = 0x20018) && okPa (place v (whoS v v.cur.1) (entryAt (t.x 1).toNat 2 2 1 1 t.me.su.steps) true false) fun q' _ => decide (q'.pa = 0x20048)) = true := by
      decide +kernel
    have hb : t.me.su.bm ≠ [] := by decide +kernel
    intro u e
    rw [afterHeader, if_neg hb] at e
    subst e
    obtain ⟨q, v', h1, h2⟩ := okPa_ex h
    rw [Bool.and_eq_true] at h2
    obtain ⟨q', w, h3, h4⟩ := okPa_ex h2.2
    exact ⟨q, v', h1, of_decide_eq_true h2.1, q', w, h3, of_decide_eq_true h4⟩
  · have h : okPa (place s (whoS s s.cur.1) (s.x 1).toNat false false) (fun _ u => okPa (place u (whoS u u.cur.1) (entryAt (s.x 1).toNat 2 2 0 0 s.me.su.steps) false false)
        fun q v => decide (q.pa = 0x20010) && okPa (place v (whoS v v.cur.1) (entryAt (s.x 1).toNat 2 2 1 1 s.me.su.steps) true false) fun q' _ => decide (q'.pa = 0x20040)) = true := by
      decide +kernel
    have hb : s.me.su.bm = [] := by decide +kernel
    intro u e
    rw [afterHeader, if_pos hb] at e
    obtain ⟨r, e⟩ := e
    obtain ⟨q, v', h1, h2⟩ := okPa_ex (okPa_all h r u e)
    rw [Bool.and_eq_true] at h2
    obtain ⟨q', w, h3, h4⟩ := okPa_ex h2.2
    exact ⟨q, v', h1, of_decide_eq_true h2.1, q', w, h3, of_decide_eq_true h4⟩
  · have h : okPa (place s (whoS s s.cur.1) (s.x 1).toNat false false) (fun _ u => (List.range 2).all fun m =>
        okPa (place u (whoS u u.cur.1) (entryAt (s.x 1).toNat 2 2 0 0 m) false false) (fun q _ => !rangePoisoned u q.pa 8) &&
          okPa (place u (whoS u u.cur.1) (entryAt (s.x 1).toNat 2 2 1 1 m) true false) fun _ _ => true) = true := by decide +kernel
    have hb : s.me.su.bm = [] := by decide +kernel
    intro u e m hm
    rw [afterHeader, if_pos hb] at e
    obtain ⟨r, e⟩ := e
    have h1 := List.all_eq_true.mp (okPa_all h r u e) m (List.mem_range.mpr hm)
    rw [Bool.and_eq_true] at h1
    obtain ⟨q, v', h2, h3⟩ := okPa_ex h1.1
    obtain ⟨q', w, h4, _⟩ := okPa_ex h1.2
    exact ⟨⟨q, v', h2, by simpa using h3⟩, q', w, h4⟩
  · obtain ⟨r, u, h, _⟩ := okPa_ex (f := fun _ _ => true) (show okPa (place s (whoS s s.cur.1) (s.x 1).toNat false false) (fun _ _ => true) = true by decide +kernel)
    exact ⟨r, u, h⟩

/-- A task of the widest range and the least grain, one that is too wide, and one while a range is left, which gives its last index; with no interval of its own, a continuation, a free
interval, and another core's of twice the grain and of one less. -/
theorem test_witness_RangeTasks :
    let s := withX [(1, 0xFFFFFFFF), (2, 1), (3, 0x100000000)] run0
    let t := run0.modCore 0 fun k => { k with rint := (7, 8) }
    let task (c : List (W64 × W64 × List Rel)) (l : List (Nat × Nat)) : State := run0.modCluster 0 fun u => { u with task := { u.task with grain := 4, conts := c, free := l } }
    let far (n : Nat) : State := (task [] []).modCore 7 fun k => { k with rint := (10, 10 + n) }
    s.pred 0 = true ∧ ((s.x 0).toNat ≤ (s.x 1).toNat ∧ (s.x 1).toNat < 2 ^ 32 ∧ 0 < (s.x 2).toNat) ∧
      ((∀ i, i < 8 → (s.core (0 * 8 + i)).rint.2 ≤ (s.core (0 * 8 + i)).rint.1) ∧ (s.cluster 0).task.free = []) ∧ 2 ^ 32 ≤ (s.x 3).toNat ∧
      t.me.rint = (7, 8) ∧ run0.me.rint.2 ≤ run0.me.rint.1 ∧ (((task [(5, 6, [])] []).cluster 0).task.conts = [(5, 6, [])]) ∧
      (((task [] [(3, 9)]).cluster 0).task.conts = [] ∧ ((task [] [(3, 9)]).cluster 0).task.free = (3, 9) :: []) ∧
      (∀ n ∈ [8, 7], ((far n).cluster 0).task.conts = [] ∧ ((far n).cluster 0).task.free = [] ∧ 0 < ((far n).cluster 0).task.grain ∧ ((far n).core (0 * 8 + 7)).rint = (10, 10 + n) ∧
        (∀ i, i < 8 → remaining (far n) (0 * 8 + i) ≤ 10 + n - 10) ∧ (∀ i, i < 7 → remaining (far n) (0 * 8 + i) < 10 + n - 10)) ∧
      2 * ((far 8).cluster 0).task.grain ≤ 18 - 10 ∧ 17 - 10 < 2 * ((far 7).cluster 0).task.grain := by decide +kernel

/-- A counter at the end of the cluster's memory with two and with one to go, with none, and with a full queue of continuations. -/
theorem test_witness_JoinCounters :
    let pa := clusterBase 0 + 0x7FFFF0
    let obj (n : Nat) : State := withX [(1, BitVec.ofNat 64 (clusterWin + 0x7FFFF0))] (withMem pa (n + 0x1000 * 256 ^ 8) 16 run0)
    ((obj 2).pred 0 = true ∧ spaceOf ((obj 2).x 1).toNat = some .cluster ∧ ((obj 2).x 1).toNat % 16 = 0 ∧ ((obj 2).x 1).toNat + 16 ≤ 0x000FFFFFFF800000) ∧
      (reaches (obj 2) ((obj 2).x 1).toNat 16 false pa ∧ reaches (obj 1) ((obj 1).x 1).toNat 16 false pa ∧ reaches (obj 0) ((obj 0).x 1).toNat 16 false pa) ∧
      1 < memNat (obj 2).mem pa 4 ∧ memNat (obj 1).mem pa 4 = 1 ∧ memNat (obj 0).mem pa 4 = 0 ∧ ((obj 1).cluster 0).task.conts.length < 16 ∧
      16 ≤ (((obj 1).modCluster 0 fun u => { u with task := { u.task with conts := List.replicate 16 (0, 0, []) } }).cluster 0).task.conts.length :=
  ⟨by decide +kernel, ⟨reaches_of (by decide +kernel), reaches_of (by decide +kernel), reaches_of (by decide +kernel)⟩, by decide +kernel, by decide +kernel, by decide +kernel,
    by decide +kernel, by decide +kernel⟩

/-- A stage held by core 0 itself, with room for one message and with none; no such stage; a message and none. -/
theorem test_witness_Messages :
    let m : Msg := ⟨9, 0, Rel.none⟩
    let s := (withX [(1, 15), (2, 16)] run0).modCore 0 fun k => { k with stage := 15, q := { k.q with msgs := List.replicate 31 m } }
    let t := (withX [(1, 15)] run0).modCore 0 fun k => { k with stage := 15, q := { k.q with msgs := List.replicate 32 m } }
    let l (s : State) := stageCores s s.me.kern (s.x 1).toNat
    (s.pred 0 = true ∧ (s.x 1).toNat < 16 ∧ l s ≠ []) ∧ (∀ c ∈ l s, (s.strand c).mir.st ≠ .saved ∧ (s.core c).q.msgs.length + inFlight s c < 32) ∧
      16 ≤ (s.x 2).toNat ∧ (∃ c ∈ l t, (t.strand c).mir.st = .saved ∨ 32 ≤ (t.core c).q.msgs.length + inFlight t c) ∧
      s.me.q.msgs = m :: List.replicate 30 m ∧ run0.me.q.msgs = [] := by decide +kernel

/-- Forked engines that are idle, and one that is not; producers that have completed, one that faulted, and one that is outstanding. -/
theorem test_witness_StrandEnd :
    let ring (f : Ring → Ring) : State := run0.modEng 0 1 fun g => { g with ring := f { g.ring with declared := true, forked := true } }
    let kern (l : List Nat) : Kernel := { tag := 1, ctx := 0, die := 0, dies := [0], cfirst := 0, clast := 0, level := 0, eff := 0, since := 0, entry := 0, args := [], rsbase := 0, rsstride := 0, stages := [], prods := l, strs := [], tagTab := 0x10000, issued := true, placeable := none, toTrigger := 8, running := 8, retireAt := none, tagState := 1, uncovered := false, rels := [] }
    let tags (v : Nat) (l : List Nat) : State := withMem 0x20002 v 4 (paged { run0 with sb := [(0, .kernel (kern l))] })
    run0.pred 0 = true ∧ (∀ e, ((ring id).me.engine e).ring.forked = true → engineIdle (ring id) (ring id).cur.1 e = true) ∧
      ((ring fun r => { r with tail := 1 }).me.engine 1).ring.forked = true ∧ engineIdle (ring fun r => { r with tail := 1 }) 0 1 = false ∧
      kernelOf (tags 2 [1]) (tags 2 [1]).me.kern = some (kern [1]) ∧ (∀ x ∈ (kern [1]).prods, producerState (tags 2 [1]) (dieOf (tags 2 [1]).cur.1) (kern [1]) x = 1) ∧
      (∀ y ∈ [2], producerState (tags 0x20C03 [1, 2]) 0 (kern [1, 2]) y ≠ 0) ∧ producerState (tags 0x20C03 [1, 2]) 0 (kern [1, 2]) 1 = 256 + 0x0C ∧
      ((kern [2, 1]).prods = [2] ++ 1 :: [] ∧ (∀ y ∈ [2], producerState (tags 0x20C03 [2, 1]) 0 (kern [2, 1]) y = 1) ∧ producerState (tags 0x20C03 [2, 1]) 0 (kern [2, 1]) 1 = 256 + 0x0C) ∧
      producerState (tags 1 [1]) 0 (kern [1]) 1 = 0 ∧ (ring id).allPerformed = true ∧ (run0.modS 0 fun u => { u with performed := 140 }).allPerformed = false ∧ run0.me.su.steps = 0 ∧
      (run0.modS 0 fun u => { u with steps := 1 }).me.su.steps ≠ 0 ∧ (run0.modS 0 fun u => { u with dwaited := some 0x10C }).me.su.dwaited = some 0x10C ∧ (tags 2 [1]).me.su.dwaited = none ∧
      (∀ x ∈ (kern [1]).prods, tagPoisoned (tags 2 [1]) 0 0 0x10000 x = false) ∧ (∀ l ∈ [[1], [1, 2], [2, 1]], tagMissing (tags 0x20C03 l) (kern l) = none) ∧ ∃ x ∈ (kern [1]).prods, tagPoisoned ({ tags 2 [1] with poison := [(0x2000, true)] } : State) 0 0 0x10000 x = true := by
  intro ring kern tags
  refine ⟨by decide +kernel, ?_, by decide +kernel⟩
  intro e h
  by_cases h1 : e = 1
  · subst h1; decide +kernel
  · exfalso
    have h2 : ((ring id).me.engine e).ring.forked = (mapGet Eng.reset e [(1, ({ Eng.reset with ring := { Ring.reset with declared := true, forked := true } } : Eng))]).ring.forked := rfl
    rw [h2] at h
    simp [mapGet, mapFind, Ne.symm h1, Eng.reset, Ring.reset] at h

/-- Pool 63, the context's own; all defined control bits set; a reserved bit; a pool without an owner. -/
theorem test_witness_PoolIssue :
    let s := withX [(1, 0xFFFF003F), (2, 0x3F), (3, 0x40), (4, 0)] (run0.modPool 63 fun p => { p with owner := some 0 })
    let mine (n : Nat) : Prop := (s.pool n).owner = some s.me.ctx ∧ poolPart s n = partOf s (dieOf s.cur.1)
    s.pred 0 = true ∧ (s.x 1 &&& ~~~0xFFFF003F = 0 ∧ mine ((s.x 1).toNat % 64)) ∧ (s.x 2 &&& ~~~0x3F = 0 ∧ mine ((s.x 2).toNat % 64)) ∧
      (s.x 3 &&& ~~~0xFFFF003F ≠ 0 ∧ s.x 3 &&& ~~~0x3F ≠ 0) ∧ (s.x 4 &&& ~~~0x3F = 0 ∧ ¬ mine ((s.x 4).toNat % 64)) := by decide +kernel

/-- A decidable form of a header that an engine can read. -/
def peekB (s : State) (e va h : Nat) : Bool := match peekRange s (whoCore s s.cur.1 e) va 16 with | .ok x _ => decide (x = h) | _ => false

theorem peek_of {s : State} {e va h : Nat} (p : peekB s e va h = true) : ∃ u, peekRange s (whoCore s s.cur.1 e) va 16 = .ok h u := by
  unfold peekB at p
  cases hp : peekRange s (whoCore s s.cur.1 e) va 16 with
  | ok x t => rw [hp] at p; exact ⟨t, by rw [of_decide_eq_true p]⟩
  | trap c i t => rw [hp] at p; exact absurd p (by simp)
  | stall m => rw [hp] at p; exact absurd p (by simp)
  | miss a b c => rw [hp] at p; exact absurd p (by simp)

theorem header_of {s : State} {e va h : Nat} (a : spanTrap [spanNear va 16 1] = none) (p : peekB s e va h = true)
    (b : mapFind (nearPa (whoCore s s.cur.1 e) va / 64) s.shadow = none) : headerThere e va h s := ⟨a, peek_of p, b⟩

theorem test_witness_PlainEntries :
    let w (r : BitVec 3) : EWord := ⟨0, 0, 0, 0, r, 0⟩
    (∀ e ∈ [1, 2, 3, 5, 6], entryReady e (w 0) (okPlain (w 0)) .zero (turnOf e run0)) ∧ (∀ e ∈ [3, 5, 6], entryReady e (w 5) (okPlain (w 5)) .set (turnOf e run0)) ∧
      (turnOf 5 run0).me.m.leasing = none := by
  unfold entryReady; decide +kernel

/-- Operands at the ends of the core's memory, the cluster's and a mapped page, for each load command on L0. -/
theorem test_witness_LoadCommandsStart :
    let s := turnOf 1 run0
    let x (n : Nat) : BitVec 56 := BitVec.ofNat 56 n
    let w (n : Nat) (c : BitVec 3) : EWord := ⟨0, 0, BitVec.ofNat 30 (n / 1024), 0, 0, c⟩
    let wl := w (0 * 2 ^ 31) 1
    let lx (x1 x2 x3 : BitVec 56) (ww : EWord) := spanTrap [⟨payAddr x1 + lWidth (argF ww 36 33) * (boxSpan (boxExtents x2) (boxStrides x3)).1,
      payAddr x1 + lWidth (argF ww 36 33) * (boxSpan (boxExtents x2) (boxStrides x3)).2 + lWidth (argF ww 36 33) - 1, lWidth (argF ww 36 33), true, false⟩]
    let wg := w (1 * 2 ^ 27) 0
    let hb := 1 + 1 * 256 ^ 2 + 1 * 256 ^ 4
    let sb := withMem 0x20000 hb 16 (paged (s.modCluster 0 fun u => { u with ctlb := [(0, [⟨0, 0x10000, 65536, 0x20000, true, false, false⟩])] }))
    let hc := 64 + 8 * 256 ^ 4 + 9 * 256 ^ 5 + 5 * 256 ^ 6 + 80 * 256 ^ 8
    let sc := withMem (coreBase 0) hc 16 s
    let hp := 128 + 1 * 256 ^ 12
    let sp := withMem (coreBase 0) hp 16 s
    let core : BitVec 56 := x coreWin
    let sg := s.modCore 0 fun k => { k with prog := [(1, (7, 9))] }
    let sl := withMem (coreBase 0) 0x8101 2 s
    (entryReady 1 wl (okLstrm wl (x (coreWin + 0x7FFFC)) (x 0) (x 0)) .zero s ∧ argF wl 39 37 / 4 = 1 - 1 ∧ lx (x (coreWin + 0x7FFFC)) (x 0) (x 0) wl = none ∧
      spaceOf (payAddr (x (coreWin + 0x7FFFC))) = some .core) ∧
    (∀ p, p ∈ [(7, 9)] → sg.cur.2 = 1 ∧ mapFind 1 sg.me.prog = some p) ∧
    (entryReady 1 wg (okLgath wg core core (x 1)) .zero s ∧ (∀ z ∈ [s, sl], watermarkStall z (whoCore z z.cur.1 1) (nearPa (whoCore z z.cur.1 1) (payAddr core)) 8 = false) ∧ (∀ z ∈ [s, sl], gatherTrap (payAddr core) 4 (payAddr core) (8 * 1) 1
      ((List.range (64 * 1)).filter fun i => (memNat z.mem (nearPa (whoCore z z.cur.1 1) (payAddr core)) (8 * 1)).testBit i) = none)) ∧
    (∀ z ∈ [s, sl], gatherTrap (payAddr core) 4 (payAddr core) (2 * 1) 2 (runSelect 0 (runWords z.mem (nearPa (whoCore z z.cur.1 1) (payAddr core)) 1)).1 = none) ∧
    (entryReady 1 (w 0 0) (okLbmg (w 0 0) (x 0x10000) (x 0) (x (65532 + 3 * 2 ^ 16))) .zero sb ∧ spanTrap [spanFar 0x10000 16 16] = none ∧
      payF (x (65532 + 3 * 2 ^ 16)) 15 0 + payF (x (65532 + 3 * 2 ^ 16)) 31 16 + 1 ≤ 65536 ∧ bmIndexOk ⟨hb % 65536, hb / 65536 % 65536, hb / 2 ^ 32 % 65536⟩ (payF (x 0) 43 0) = true ∧
      bmLblk (payF (x 0) 43 0) + payF (x (65532 + 3 * 2 ^ 16)) 47 32 + 1 ≤ hb / 2 ^ 32 % 65536 ∧
      spanTrap [⟨payAddr (x 0x10000), bmgEntry (x 0x10000) (x 0) (hb / 65536 % 65536) (hb / 2 ^ 32 % 65536) 0 + 8 * (payF (x (65532 + 3 * 2 ^ 16)) 47 32 + 1) - 1, 16, true, true⟩] = none) ∧
    (∃ u, peekRange sb (whoCore sb sb.cur.1 1) (payAddr (x 0x10000)) 16 = .ok hb u) ∧
    (∃ p u, place sb (whoCore sb sb.cur.1 1) (payAddr (x 0x10000)) false false = .ok p u ∧ decide (mapFind (p.pa / 64) sb.shadow = none) = true) ∧
    headerThere 1 (payAddr core) hc sc ∧
    (entryReady 1 (w 0 0) (okLcbtab (w 0 0) core) .zero sc ∧ (bookHeader hc).ok = true ∧ argF (w 0 0) 35 12 < ((bookHeader hc).len + 2 ^ (bookHeader hc).glog - 1) / 2 ^ (bookHeader hc).glog ∧
      spanTrap [spanNear (payAddr core + (bookHeader hc).toff + 0 * 2 ^ (bookHeader hc).w * (bookHeader hc).e) (2 ^ (bookHeader hc).w * (bookHeader hc).e) 1] = none ∧
      (mapGet XtBank.reset (argF (w 0 0) 39 36) sc.me.xt).full = false ∧ (mapGet XtBank.reset (argF (w 0 0) 39 36) sc.me.xt).clearedAt ≠ sc.me.cy + 1) ∧
    (entryReady 1 (w (1 * 2 ^ 29) 0) (okLcbx (w (1 * 2 ^ 29) 0) core) .zero sc ∧ 64 ≤ (argF (w (1 * 2 ^ 29) 0) 32 29 + 1) * 2 ^ (bookHeader hc).glog ∧
      payF (x 63) 31 0 + payF (x 63) 55 32 + 1 ≤ (bookHeader hc).len ∧
      spanTrap [spanNear (payAddr core) (16 + ((payF (x 63) 31 0 + (payF (x 63) 55 32 + 1)) * (bookHeader hc).w + 7) / 8) 1] = none) ∧
    headerThere 1 (payAddr core) hp sp ∧
    (entryReady 1 (w 0 0) (okLpkld (w 0 0) core (x 128)) .zero sp ∧ (packHeader hp).ok (payF (x 128) 31 0) = true ∧ (packHeader hp).flags % 2 = 0 ∧
      spanTrap [spanNear (payAddr core) (16 + 2 * (packHeader hp).body) 1] = none) := by
  unfold entryReady
  intro s x w wl lx wg hb sb hc sc hp sp core sg sl
  refine ⟨by decide +kernel, by decide +kernel, by decide +kernel, by decide +kernel, by decide +kernel, peek_of (by decide +kernel),
    okPa_ex (f := fun p _ => decide (mapFind (p.pa / 64) sb.shadow = none)) (by decide +kernel), header_of (by decide +kernel) (by decide +kernel) (by decide +kernel),
    by decide +kernel, by decide +kernel, header_of (by decide +kernel) (by decide +kernel) (by decide +kernel), by decide +kernel⟩

/-- A stream and a narrowed stream of W, a packing store, a scatter, at the ends of the core's memory. -/
theorem test_witness_StoreCommandsStart :
    let s := turnOf 3 run0
    let x (n : Nat) : BitVec 56 := BitVec.ofNat 56 n
    let w (n : Nat) : EWord := ⟨0, 0, BitVec.ofNat 30 (n / 1024), 0, 5, 0⟩
    let core : BitVec 56 := x coreWin
    let hp := 128 + 1 * 256 ^ 12
    let sp := withMem (coreBase 0) hp 16 s
    let wb := w (8 * 2 ^ 33 + 1024)
    (entryReady 3 (w 0) (okWstrm (w 0) (x (coreWin + 0x7FFFC)) (x 0) (x 0)) .code s ∧ argF (w 0) 36 33 < 8 ∧
      spanTrap [⟨payAddr (x (coreWin + 0x7FFFC)) + 4 * (boxSpan (boxExtents (x 0)) (boxStrides (x 0))).1, payAddr (x (coreWin + 0x7FFFC)) + 4 * (boxSpan (boxExtents (x 0)) (boxStrides (x 0))).2 + 4 - 1, 4, true, false⟩] = none) ∧
    (entryReady 3 wb (okWstrm wb core core core) .code s ∧ 8 ≤ argF wb 36 33 ∧
      spanTrap [span (payAddr core) (8 * blockCode (argF wb 36 33) * argF wb 30 10) 1, span (payAddr core) (2 * argF wb 30 10) 1, spanNear (payAddr core) 16 1] = none ∧ payAddr core % 16 = 0 ∧
      (0 : Nat) % 2 ^ 32 ≤ 0 / 2 ^ 32 % 2 ^ 32 ∧ spanTrap [spanNear (payAddr core) (16 + 8 * (0 / 2 ^ 32 % 2 ^ 32)) 1] = none) ∧
    headerThere 3 (payAddr core) 0 s ∧
    (entryReady 3 (w 0) (okWpkst (w 0) core (x 128)) .code sp ∧ (packHeader hp).ok (payF (x 128) 31 0) = true ∧ spanTrap [spanNear (payAddr core) (16 + 2 * (packHeader hp).body) 1] = none) ∧
    headerThere 3 (payAddr core) hp sp ∧
    (entryReady 3 (w 0) (okWscat (w 0) (x (coreWin + 0x7FFFC)) (x 0) (x 1)) .code s ∧
      spanTrap [span (payAddr (x (coreWin + 0x7FFFC))) (wWidth (argF (w 0) 35 32) * payF (x 1) 31 0) (wWidth (argF (w 0) 35 32))] = none) ∧
    (entryReady 3 (w 0) (okWscat (w 0) (x 0) (x 0) (x 0)) .code s ∧ payF (x 0) 31 0 = 0) := by
  unfold entryReady
  refine ⟨by decide +kernel, by decide +kernel, header_of (by decide +kernel) (by decide +kernel) (by decide +kernel), by decide +kernel,
    header_of (by decide +kernel) (by decide +kernel) (by decide +kernel), by decide +kernel⟩

theorem handles_of {s : State} {c : Nat} {l : List Nat} (h : (l.all fun x => (handleCheck s c x).isSome) = true) : ∀ x ∈ l, ∃ d, handleCheck s c x = some d :=
  fun x hx => Option.isSome_iff_exists.1 (List.all_eq_true.1 h x hx)

/-- A held lease of both arrays that is used 63 times, and three slots with a tile of one row and 32 elements in the core's memory, the last one being slot 4095. -/
def leased : State :=
  let d : Desc := { Desc.reset with valid := true, format := 0x10, stride := 32, cols := 32, rows := 1, base := BitVec.ofNat 64 coreWin, ebase := BitVec.ofNat 64 (coreWin + 64) }
  ((turnOf 5 run0).modM 0 fun m => { m with held := true, dvalid := true, desig := 2, used := 63 }).modCtx 0 fun x => { x with slots := [(0, d), (1, { d with format := 9, stride := 128 }), (4095, d)] }

theorem test_witness_ArrayCommandsStart :
    let s := leased
    let w (n : Nat) (r : BitVec 3) : EWord := ⟨0, 0, BitVec.ofNat 30 (n / 1024), 0, r, 0⟩
    let pay (a b c : Nat) : BitVec 56 := BitVec.ofNat 56 (a * 2 ^ 36 + b * 2 ^ 16 + c)
    let ready (i : Instr) (v : EWord) (ok : Bool) (round : RF) : Prop := ∃ y occ, mOp i = some y ∧ entryReady 5 v ok round s ∧ arraysFull s.me.m.cmds y = false ∧ (∀ x ∈ s.me.m.cmds, x.spacing y ≤ s.me.cy) ∧
      (∀ a ∈ y.arrays, a ∈ desigArrays s.me.m.desig) ∧ (∀ h ∈ y.handles, ∃ d, handleCheck s s.me.ctx h = some d) ∧
      arrayChecks y (y.handles.filterMap fun h => handleCheck s s.me.ctx h) = .inr occ ∧ s.me.cy - s.me.m.grant + occ ≤ 8192
    (s.me.m.halted = false ∧ s.me.m.leasing = none ∧ s.me.m.dvalid = true ∧ s.me.m.held = true ∧ s.me.m.granted = none ∧ s.me.m.used < 64) ∧
      ready (.mmul (w 0 0) (pay 4095 0 0)) (w 0 0) (okMmul (w 0 0) (pay 4095 0 0)) .code ∧
      ready (.mmul2 (w 0 0) (pay 0 4095 0) (pay 0 0 0)) (w 0 0) (okMmul2 (w 0 0) (pay 0 4095 0) (pay 0 0 0)) .code ∧
      ready (.mdrain (w 0 0) (pay 1 0 0) 0) (w 0 0) (okMdrain (w 0 0) (pay 1 0 0) 0) .code ∧
      ready (.mzero (w (2 ^ 39) 0)) (w (2 ^ 39) 0) (okMzero (w (2 ^ 39) 0)) .zero ∧
      entryReady 5 (w (2 * 2 ^ 38) 0) (okMlease (w (2 * 2 ^ 38) 0)) .zero s ∧ entryReady 5 (w 0 0) (okPlain (w 0 0)) .zero s := by
  unfold entryReady
  refine ⟨by decide +kernel, ⟨_, 268, rfl, by decide +kernel, by decide +kernel, by decide +kernel, by decide +kernel, handles_of (by decide +kernel), by decide +kernel, by decide +kernel⟩,
    ⟨_, 268, rfl, by decide +kernel, by decide +kernel, by decide +kernel, by decide +kernel, handles_of (by decide +kernel), by decide +kernel, by decide +kernel⟩,
    ⟨_, 1, rfl, by decide +kernel, by decide +kernel, by decide +kernel, by decide +kernel, handles_of (by decide +kernel), by decide +kernel, by decide +kernel⟩,
    ⟨_, 32, rfl, by decide +kernel, by decide +kernel, by decide +kernel, by decide +kernel, handles_of (by decide +kernel), by decide +kernel, by decide +kernel⟩,
    by decide +kernel, by decide +kernel⟩

/-- Entries of each kind for channel 15, whose queue holds seven. -/
theorem test_witness_CopyEntriesQueue :
    let e : CopyEnt := ⟨.lEnop ⟨0, 0, 0, 0, 0, 0⟩, 0, 0, 0, true, false, 0, 1, 0, none, 0, Rel.none, 0⟩
    let s := (turnOf 6 run0).modCluster 0 fun u => { u with chans := [(15, { Chan.reset with queue := List.replicate 7 e })] }
    let w (n : Nat) (r : BitVec 3) : EWord := ⟨0, 0, BitVec.ofNat 30 ((15 * 2 ^ 36 + n) / 1024), 0, r, 0⟩
    let x (n : Nat) : BitVec 56 := BitVec.ofNat 56 n
    let a : BitVec 56 := x coreWin
    let ready (i : Instr) (v : EWord) (ok : Bool) (round : RF) : Prop := entryReady 6 v (ok && coreFieldsOk i) round s ∧ argF v 39 36 = 15 ∧ ((s.cluster 0).chan 15).queue.length < 8 ∧ cChecks i = none ∧
      bindBar i ((s.cluster 0).chan 15).bound ≠ none
    ready (.ccopy (w 1024 0) a (x clusterWin)) (w 1024 0) (okCcopy (w 1024 0) a (x clusterWin)) .code ∧
      ready (.cwin (w 0 0) a (x clusterWin) (x (1 + 2 ^ 14 + 2 ^ 28))) (w 0 0) (okCwin (w 0 0) a (x clusterWin) (x (1 + 2 ^ 14 + 2 ^ 28))) .zero ∧
      ready (.cadd (w 0 0) (x 0) (x 0)) (w 0 0) (okCadd (w 0 0) (x 0) (x 0)) .code ∧
      ready (.caccld (w 0 0) (x clusterWin)) (w 0 0) (okCacc (w 0 0) (x clusterWin)) .zero ∧ ready (.caccst (w 0 0) (x clusterWin)) (w 0 0) (okCacc (w 0 0) (x clusterWin)) .zero ∧
      ready (.cexp (w 0 0) (x clusterWin)) (w 0 0) (okCexp (w 0 0) (x clusterWin)) .zero ∧ ready (.carr (w 0 0) (x clusterWin)) (w 0 0) (okCarr (w 0 0) (x clusterWin)) .zero := by
  unfold entryReady
  decide +kernel

/-- A command of v1 from v2, v3 and v4 (or masks, or literals, of those numbers) under a mask, and one that reads data queue 0 into store queue 3. -/
def vw (mask mod : BitVec 3) : VWord := ⟨0, 0, 1, 2, 3, 4, mask, 0, 0, mod⟩
def vq : VWord := ⟨0, 0, 75, 64, 3, 0, 0, 0, 5, 0⟩
/-- V's turn; m1 holds lane 63 alone; data queue 0 holds an element and store queue 3 seven. -/
def vrun : State :=
  (turnOf 4 run0).modCore 0 fun k => { k with v := { k.v with m := [(1, 0x8000000000000000)] }, q := { k.q with dq := [(0, [⟨List.replicate 64 0xFF, 0⟩])], sq := [(3, List.replicate 7 ⟨0, none, Rel.none⟩)] } }

theorem test_witness_VectorLaneResults :
    (∀ e ∈ integerLanes (vw 1 0), vReady e.2.1 (vw 1 0) vrun) ∧ (∀ e ∈ integerLanes { vq with round := 0 }, vReady e.2.1 { vq with round := 0 } vrun) ∧
      (∀ e ∈ floatLanes vq (roundMode vrun.me 4 vq.round), vReady e.2.1 vq vrun ∨ e.2.1.round = .zero) ∧
      (∀ e ∈ floatLanes (vw 1 0) (roundMode vrun.me 4 0), vReady e.2.1 (vw 1 0) vrun) := by
  unfold vReady; decide +kernel

theorem test_witness_VectorMaskResults :
    (∀ e ∈ compares (vw 1 0), vReady fCmp (vw 1 0) vrun) ∧ vReady fMask2 (vw 7 0) vrun ∧ vReady fMask1 (vw 7 0) vrun ∧ vReady fMpop (vw 0 0) vrun := by
  unfold vReady; decide +kernel

/-- The two narrowings are to a register and to a store queue, and of exponents 0 and 255. -/
theorem test_witness_VectorMoveResults :
    let ex (w : VWord) (i : Nat) : Nat := (laneAt (vrun.me.vsrc w.vb.toNat) (i / 32 * 32)).toNat % 256
    let n : VWord := { vq with va := 2, round := 5, mod := 7 }
    vReady fVsel (vw 1 0) vrun ∧ vReady fBin (vw 1 0) vrun ∧ vReady fSlide { vw 1 0 with vc := 63 } vrun ∧ vReady fBcast { vw 1 0 with vb := 63 } vrun ∧ vReady fMov (vw 1 1) vrun ∧
      vReady fWiden (vw 1 7) vrun ∧ (vReady (fNarrow (vw 0 7)) (vw 0 7) vrun ∧ ex (vw 0 7) 0 ≠ 255 ∧ ex (vw 0 7) 32 ≠ 255 ∧ isSq (vw 0 7).vd.toNat = false) ∧
      (vReady (fNarrow n) n vrun ∧ ex n 0 ≠ 255 ∧ ex n 32 ≠ 255 ∧ isSq n.vd.toNat = true) ∧
      (vReady (fNarrow { n with vb := 64 }) { n with vb := 64 } vrun ∧ ex { n with vb := 64 } 32 = 255) := by
  intro ex n
  unfold vReady
  repeat' apply And.intro
  all_goals decide +kernel

theorem test_witness_VectorReductionResults :
    vReady fRedI32 (vw 1 1) vrun ∧ vReady fRedF32 (vw 1 1) vrun ∧ vReady fRedMax (vw 1 3) vrun ∧ vReady fRedF64 (vw 1 1) vrun ∧ vReady fTopk { vw 1 0 with vc := 64 } vrun ∧
      vReady fTopk { vw 1 0 with vc := 1 } vrun := by
  unfold vReady; decide +kernel

/-- A deferral queue with room for the records and one without; a loop of a body of one word, an enop of stage 7, in a static ring, with trip counts 0 and 2^32 - 8. -/
theorem test_witness_VectorControlResults :
    let rec_ : DefRec := ⟨0, 0, 0, 0⟩
    let q (n : Nat) : State := vrun.modV 0 fun v => { v with defer := [(7, List.replicate n rec_)] }
    let lw : VWord := ⟨0, 0, 1, 95, 0, 0, 0, 0, 0, 7⟩
    let loop (n : W32) : State := withMem (coreBase 0 + 8) 0x00000200000001C0 8 ((vrun.modEng 0 4 fun g => { g with ring := { g.ring with declared := true, forked := true, tail := 2 } }).modV 0
      fun v => { v with k := [(15, n)] })
    let s := loop 0xFFFFFFF8
    vReady fEnop { vw 0 0 with va := 64 } vrun ∧ vrun.me.v.active = false ∧ vReady fSetrm { vw 0 0 with round := 5 } vrun ∧
      (∀ m ∈ [(0 : BitVec 3), 1, 2, 3], vReady (fVtos (vw 0 m)) (vw 0 m) vrun) ∧
      (vReady fVdefer (vw 1 7) (q 255) ∧ (mapGet [] 7 (q 255).me.v.defer).length + 1 ≤ 256 ∧ ((q 255).me.v.mask 1) = 0x8000000000000000) ∧
      (vReady fVdefer (vw 1 7) (q 256) ∧ 256 < (mapGet [] 7 (q 256).me.v.defer).length + 1) ∧ vReady fVdrain { vw 0 7 with vd := 60, vb := 1 } (q 1) ∧
      (vReady fVloop lw s ∧ s.me.v.active = false ∧ (mapGet 0#32 (lw.va.toNat - 80) s.me.v.k).toNat = 2 ^ 32 - 8 ∧ 1 + lw.vd.toNat ≤ (s.me.engine 4).ring.size ∧
        wordsPresent s s.cur.1 4 (1 + lw.vd.toNat) = true ∧ ringPoisoned s s.cur.1 4 1 lw.vd.toNat = false ∧
        (∀ i, i < lw.vd.toNat → (ringWord s s.cur.1 4 (1 + i)).toNat / 2 ^ 6 % 8 ≤ lw.mod.toNat ∧ (ringWord s s.cur.1 4 (1 + i)).toNat / 2 ^ 40 % 256 ≠ 4)) ∧
      (mapGet 0#32 (lw.va.toNat - 80) (loop 0).me.v.k).toNat = 0 := by
  intro rec_ q lw loop s
  unfold vReady
  repeat' apply And.intro
  all_goals decide +kernel

/-- Lane 63 alone: idle with a coded stream at the start of the core's memory, an encoder with a checkpoint of its own mode, one without. -/
theorem test_witness_CoderLaneResults :
    let s := withFull (coreBase 0) (withFull (coreBase 0 + 16) (withMem (coreBase 0) (4 + 1 * 256 ^ 4 + 4 * 256 ^ 8) 16 vrun))
    let ck : CkSlot := ⟨true, 2, 0, 0, 0, false, 0, 0, 0, 0, 0, 0⟩
    let u := vrun.modV 0 fun v => { v with coder := [(63, { CoderLane.reset with mode := 2, slot1 := ck })] }
    let en := enabledLanes s.me (vw 1 0)
    let a (i : Nat) : Nat := (laneAt (s.me.csrc 2) i).toNat
    (coderBusy s.me.v = false ∧ coreClean s ∧ coderBusy u.me.v = false ∧ coreClean u ∧ coreClean vrun) ∧
      (vReady fRcinitD { vw 1 0 with vc := 7 } s ∧ ∀ i ∈ en, baseOk (a i) = true ∧ (codedHeader s s.cur.1 (a i)).ok = true ∧
        ∀ o, a i ≤ o → o < a i + 16 + min 4 (codedHeader s s.cur.1 (a i)).bytes → fullAt s (coreBase s.cur.1 + o) = true) ∧
      (vReady fRcinitE (vw 1 1) s ∧ ∀ i ∈ en, a i % 16 = 0 ∧ a i + 16 + (laneAt (s.me.csrc 3) i).toNat ≤ 524288) ∧
      vReady fRcfin (vw 1 0) s ∧ vReady fRcstat (vw 1 3) s ∧ vReady fCkpt (vw 1 1) u ∧
      (∀ i ∈ enabledLanes u.me (vw 1 1), (u.me.lane i).slot1.valid = true ∧ (u.me.lane i).slot1.mode = (u.me.lane i).mode) ∧
      (vReady fCkpt (vw 1 0) u ∧ ∃ i ∈ enabledLanes u.me (vw 1 0), (u.me.lane i).slot0.valid = false) ∧
      (vReady fRcenc (vw 1 0) s ∧ ∃ i ∈ en, (s.me.lane i).mode ≠ 2) := by
  intro s ck u en a
  have hen : en = [63] := by decide +kernel
  have hu : ∀ m : BitVec 3, m = 0 ∨ m = 1 → enabledLanes u.me (vw 1 m) = [63] := by intro m h; rcases h with h | h <;> subst h <;> decide +kernel
  refine ⟨⟨by decide +kernel, fun _ => ⟨rfl, rfl, rfl⟩, by decide +kernel, fun _ => ⟨rfl, rfl, rfl⟩, fun _ => ⟨rfl, rfl, rfl⟩⟩, ⟨by unfold vReady; decide +kernel, ?_⟩,
    ⟨by unfold vReady; decide +kernel, by rw [hen]; decide +kernel⟩, by unfold vReady; decide +kernel, by unfold vReady; decide +kernel, by unfold vReady; decide +kernel, ?_,
    ⟨by unfold vReady; decide +kernel, 63, by rw [hu 0 (.inl rfl)]; decide, by decide +kernel⟩, by unfold vReady; decide +kernel, 63, by rw [hen]; decide, by decide +kernel⟩
  · rw [hen]
    intro i hi
    rw [List.mem_singleton.1 hi]
    refine ⟨by decide +kernel, by decide +kernel, ?_⟩
    have h0 : a 63 = 0 := by decide +kernel
    have h1 : 16 + min 4 (codedHeader s s.cur.1 0).bytes = 20 := by decide +kernel
    have h2 : ∀ o, o < 20 → fullAt s (coreBase s.cur.1 + o) = true := by decide +kernel
    intro o _ ho
    exact h2 o (by rw [h0] at ho; omega)
  · rw [hu 1 (.inr rfl)]
    intro i hi
    rw [List.mem_singleton.1 hi]
    exact ⟨by decide +kernel, by decide +kernel⟩

/-- Lane 63 alone: a decoder at the last two bytes of its stream, an encoder; a table of two symbols in slot 3, and in slot 0 for a table number in v3 or v2. -/
theorem test_witness_CoderDecisionResults :
    let bank : CdfBank := ⟨2, 0, [0, 1, 32768]⟩
    let lane (m : Nat) : State := withFull (coreBase 0 + 16) (vrun.modV 0 fun v => { v with coder := [(63, { CoderLane.reset with mode := m, range := 0xFFFFFFFF, pos := 18, fin := 20, count := 1 })], cdf := [(0, { CdfSlot.reset with bank0 := bank }), (3, { CdfSlot.reset with bank0 := bank })] })
    let d := lane 1
    let e := lane 2
    let w (m : BitVec 3) : VWord := { vw 1 m with vc := 7 }
    let en (s : State) (m : BitVec 3) := enabledLanes s.me (w m)
    (coderBusy d.me.v = false ∧ coreClean d ∧ coderBusy e.me.v = false ∧ coreClean e) ∧
      (∀ i ∈ en d 0, (d.me.lane i).mode = 1 ∧ ∀ o ∈ nextBytes (d.me.lane i), fullAt d (coreBase d.cur.1 + o) = true) ∧
      vReady fRcdec (w 0) d ∧ (vReady (fRcdecm (w 0)) (w 0) d ∧ (d.me.cdf (w 0).vb.toNat).bank.n ≠ 0) ∧
      (vReady (fRcdecm (w 1)) (w 1) d ∧ ∀ i ∈ en d 1, (d.me.cdf ((laneAt (d.me.csrc (w 1).va.toNat) i).toNat % 16)).bank.n ≠ 0) ∧
      (vReady fRcenc (w 0) e ∧ ∀ i ∈ en e 0, (e.me.lane i).mode = 2) ∧
      (vReady (fRcencm (w 0)) (w 0) e ∧ ∀ i ∈ en e 0, (laneAt (e.me.csrc (w 0).va.toNat) i).toNat < (e.me.cdf (w 0).vb.toNat).bank.n) ∧
      (vReady (fRcencm (w 1)) (w 1) e ∧ ∀ i ∈ en e 1, (laneAt (e.me.csrc (w 1).va.toNat) i).toNat < (e.me.cdf ((laneAt (e.me.csrc (w 1).vb.toNat) i).toNat % 16)).bank.n) := by
  intro bank lane d e w en
  refine ⟨⟨by decide +kernel, fun _ => ⟨rfl, rfl, rfl⟩, by decide +kernel, fun _ => ⟨rfl, rfl, rfl⟩⟩, by decide +kernel, ?_⟩
  unfold vReady; decide +kernel

/-- An image of two symbols at the end of what lane 0 of v2 can name: here at the start of the core's memory. -/
theorem test_witness_ProbabilityResults :
    let s := withFull (coreBase 0) (withFull (coreBase 0 + 16) (withMem (coreBase 0) (2 + 1 * 256 ^ 18 + 32768 * 256 ^ 20) 22 vrun))
    let f (o n : Nat) : Nat := memNat s.mem (coreBase s.cur.1 + 0 + o) n
    vReady fQun { vw 1 0 with vd := 111 } vrun ∧ vReady fQadapt { vw 1 7 with vd := 96 } vrun ∧ vReady fCdfsw { vw 0 0 with vb := 15 } s ∧ coreClean s ∧
      ((laneAt (s.me.csrc 2) 0).toNat = 0 ∧ (s.me.cdf 15).switch = none ∧ baseOk 0 = true ∧ f 0 2 = 2 ∧ f 4 12 = 0 ∧ 0 + 18 + 2 * f 0 2 ≤ 524288 ∧ f 16 2 = 0 ∧ f (16 + 2 * f 0 2) 2 = 32768) ∧
      (∀ j, j < f 0 2 → f (16 + 2 * j) 2 < f (18 + 2 * j) 2) ∧ (∀ o, o < 0 + 18 + 2 * f 0 2 → 0 ≤ o → fullAt s (coreBase s.cur.1 + o) = true) := by
  intro s f
  refine ⟨by unfold vReady; decide +kernel, by unfold vReady; decide +kernel, by unfold vReady; decide +kernel, fun _ => ⟨rfl, rfl, rfl⟩, by decide +kernel, by decide +kernel, by decide +kernel⟩

/-- A due landing of core 0 with one result of each kind. -/
theorem test_witness_ResultsLand :
    let land (t : Target) : Landing := ⟨0, [t], 0, Rel.none, true, 0, 0, none, false, false⟩
    let s (t : Target) : State := run0.modV 0 fun v => { v with landings := [land t] }
    (∀ t ∈ [Target.vreg 63 [] 1, .mask 7 1, .kreg 15 1, .res 1, .inbox 1], ((s t).core 0).v.landings = land t :: [] ∧ (land t).due ≤ ((s t).core 0).cy ∧ (land t).held = false ∧ (land t).targets = [t]) ∧
      (run0.core 0).v.push = [] ∧ (run0.core 0).q.inbox.length < 16 := by decide +kernel

/-- A held token and a held inbox push, a pending switch, a park with its deadline past, a message on its way, and a phase of the network that is complete. -/
theorem test_witness_HeldPushesAndWaits :
    let s := (run0.modEng 0 6 fun g => { g with held := [⟨0, Rel.none⟩] }).modV 0 fun v => { v with push := [(some ⟨1, 4, 0⟩, 0)], cdf := [(15, { CdfSlot.reset with switch := some 0 })] }
    let t := { (run0.modS 0 fun u => { u with wait := .park 5 0 }).modQ 0 (fun q => { q with arrivals := [Rel.none] }) with flights := [(7, .msg 0 ⟨1, 0, Rel.none⟩)] }
    let p : NetPhase := ⟨0, 0, [0], Rel.none⟩
    let u := t.modCluster 0 fun x => { x with phases := [p] }
    (((s.core 0).engine 6).held.find? (fun h => h.dest = 0) = some ⟨0, Rel.none⟩ ∧ ((s.core 0).tokens 6 0).length < 15) ∧ ((s.core 0).v.push = [(some ⟨1, 4, 0⟩, 0)] ∧ (s.core 0).q.inbox.length < 16) ∧
      (((s.core 0).cdf 15).switch = some 0 ∧ 0 ≤ (s.core 0).cy) ∧ (t.core 0).su.wait = .park 5 0 ∧ (mapFind 7 t.flights = some (.msg 0 ⟨1, 0, Rel.none⟩) ∧ ((t.core 0).mir.st ≠ .idle ∨ (t.core 0).launched = true)) ∧
      ((u.cluster 0).phases = [p] ∧ p.due ≤ (u.cluster 0).dcy ∧ 0 < 1280 ∧ 0 ∈ p.members ∧ p.members.Nodup ∧ ∀ j ∈ p.members, (u.strand j).q.net.length < 15) := by decide +kernel

/-- One-lane streams of the last word of the core's memory, on L0 and on W, and a table of L0 for bank 15; W has an element to take, and later one to write. -/
theorem test_witness_AccessStepsMoveElements :
    let x (n : Nat) : BitVec 56 := BitVec.ofNat 56 n
    let w : EWord := ⟨0, 0, 0, 0, 0, 0⟩
    let wt : EWord := ⟨0, 0, 15 * 2 ^ 26, 0, 0, 0⟩
    let last : BitVec 56 := x (coreWin + 0x7FFFC)
    let run (i : Instr) (l : List Nat) (p : List (Machine.Lat × List SqData)) : Run := ⟨i, 0, 0, 0, 0, l, 1, p, []⟩
    let at_ (e : Nat) (r : Run) : State := run0.modCore 0 fun k => { k with run := [(e, r)], q := { k.q with sq := [(0, [⟨0, some (.plain [5] 1), Rel.none⟩])] } }
    let s := at_ 1 (run (.lstrm w last 0 0) [] [])
    let b := at_ 1 (run (.lcbtab wt 0) [3, 9, 2, coreWin] [])
    let u := at_ 3 (run (.wstrm w last 0 0) [] [])
    let v := at_ 3 (run (.wstrm w last 0 0) [] [(⟨0, 0⟩, [.plain [5] 1])])
    let lanes := boxLanes (payAddr last) 4 0 (boxExtents 0) (boxStrides 0)
    ((s.core 0).runOf 1 = some (run (.lstrm w last 0 0) [] []) ∧ ((s.core 0).engine 1).stop = .run ∧ (run (.lstrm w last 0 0) [] []).far ≤ s.now ∧ 0 < elemsOf ((boxExtents 0).foldl (· * ·) 1) ∧ lanes = [coreWin + 0x7FFFC] ∧
        (mapGet [] 0 (s.core 0).q.dq).length < 8) ∧ (∀ a ∈ lanes, nearClean s 0 1 a 4) ∧
      ((b.core 0).runOf 1 = some (run (.lcbtab wt 0) [3, 9, 2, coreWin] []) ∧ argF wt 39 36 = 15 ∧ ((b.core 0).engine 1).stop = .run) ∧
      readRange b (whoCore b 0 1) wt.cls.toNat coreWin (2 * 4) = .ok 0 b ∧
      ((u.core 0).runOf 3 = some (run (.wstrm w last 0 0) [] []) ∧ argF w 36 33 < 8 ∧ ((u.core 0).engine 3).stop = .run ∧ (u.core 0).mir.st = .running ∧
        mapGet [] 0 (u.core 0).q.sq = ⟨0, some (.plain [5] 1), Rel.none⟩ :: []) ∧
      ((v.core 0).runOf 3 = some (run (.wstrm w last 0 0) [] [(⟨0, 0⟩, [.plain [5] 1])]) ∧ (⟨0, 0⟩ : Machine.Lat).over (v.core 0).cy v.now = true ∧ enabledOf [5] 1 lanes.length = [(0, 5)] ∧ lanes.getD 0 0 = coreWin + 0x7FFFC) ∧ nearClean v 0 3 (coreWin + 0x7FFFC) 4 := by
  unfold nearClean
  intro x w wt last run at_ s b u v lanes
  refine ⟨?_, ?_, ?_, rfl, ?_⟩
  all_goals decide +kernel

/-- Management's state with nothing in it that no test knows: both flash slots erased, and fuses of 0. -/
def known : Sys := { Sys.reset with slotA := Slot.erased, slotB := Slot.erased, pkh := 0 }

/-- A request for both arrays; a multiplication, and a drain with an atomic maximum, of one row, at each of their steps. -/
theorem test_witness_ArraySteps :
    let w (n : Nat) : EWord := ⟨0, 0, BitVec.ofNat 30 (n / 1024), 0, 0, 0⟩
    let d (f : Nat) : Desc := { Desc.reset with valid := true, format := f, stride := 128, cols := 32, rows := 1, base := BitVec.ofNat 64 coreWin, ebase := BitVec.ofNat 64 (coreWin + 1024) }
    let c (i : Instr) (l : List (Nat × Desc)) : MCmd := ⟨i, 0, 0, 0, 0, 0, 0, l, 1, 0, 0, 1, [(127, 1), (127, 2)], false, ⟨0, 0⟩, 0⟩
    let mul := c (.mmul (w 0) 0) [(0, d 0x10), (1, d 0x10)]
    let late := { mul with late := true, fetched := 0 }
    let fin := { mul with krow := 32 }
    let drain (m : Nat) := { c (.mdrain (w (m * 2 ^ 36)) 0 (BitVec.ofNat 56 coreWin)) [(2, d 9)] with krow := 1 }
    let at_ (x : MCmd) : State := ({ run0 with sys := known }.modM 0 fun m => { m with cmds := [x], request := true, desig := 2, dvalid := true }).modCore 0 fun k => { k with cy := 1000 }
    let s := at_ mul
    ((s.core 0).m.request = true ∧ (∀ i, i < 8 → clusterOf 0 * 8 + i ≠ 0 → (s.core (clusterOf 0 * 8 + i)).m.request = false) ∧ (s.core 0).m.wants 0 = true ∧ (s.core 0).m.wants 1 = true ∧ (s.cluster 0).mx0.core = none ∧
        (s.cluster 0).mx1.core = none ∧ (s.cluster 0).mx0.freeAt ≤ (s.cluster 0).dcy) ∧
      (onlyCmd 0 mul s ∧ mul.writeDue (s.core 0).cy = true ∧ mul.late = false ∧ s.accPoison = [] ∧ mul.fetched = mul.krow / 32 + 1 ∧ ((mul.blk.drop (mul.a 0).rows).map (blockMant mul.b)).length ≤ 256) ∧
      (onlyCmd 0 late (at_ late) ∧ late.writeDue ((at_ late).core 0).cy = true ∧ late.late = true ∧ late.fetched ≠ late.krow / 32 + 1) ∧ fetchBlock (at_ late) 0 late = .ok [(0, 0), (0, 0)] (at_ late) ∧
        (∀ e ∈ late.descs, ∀ a ∈ operandPieces e.2 (argF late.op.w 30 16 + late.krow / 32), clusterOnly (at_ late) (whoCore (at_ late) 0 5) a.1 = false) ∧
      (onlyCmd 0 fin (at_ fin) ∧ fin.drainDue ((at_ fin).core 0).cy = true) ∧
      (onlyCmd 0 (drain 0) (at_ (drain 0)) ∧ (drain 0).endDue (at_ (drain 0)) 0 = true ∧ argF (drain 0).op.w 36 36 = 0) ∧
      (onlyCmd 0 (drain 1) (at_ (drain 1)) ∧ (drain 1).endDue (at_ (drain 1)) 0 = true ∧ argF (drain 1).op.w 36 36 = 1) ∧ nearClean (at_ (drain 1)) 0 5 (drain 1).op.maxaddr 4 := by
  unfold onlyCmd nearClean
  intro w d c mul late fin drain at_ s
  repeat' apply And.intro
  all_goals decide +kernel

theorem memNat_nil (a n : Nat) : memNat [] a n = 0 := by
  induction n generalizing a with
  | zero => rfl
  | succ n ih => simp [memNat, memByte, mapGet, mapFind, ih]

/-- Where memory lists nothing and nothing is in the way, pieces of cluster memory read zero and leave the state as it is. -/
theorem readList_nil {s : State} {w : Who} (cls : Nat) (hm : s.mem = []) (hs : s.shadow = []) (hp : s.poison = []) (hw : ∀ pa n, watermarkStall s w pa n = false) :
    ∀ (l : List (Nat × Nat)) (done : List Nat), (∀ p ∈ l, spaceOf p.1 = some .cluster) → readList s w cls done l = .ok (l.map fun _ => 0) s
  | [], _, _ => rfl
  | (va, n) :: r, done, h => by
    have h1 : spaceOf va = some .cluster := h (va, n) (List.mem_cons_self ..)
    have ih := readList_nil (cls := cls) hm hs hp hw r ((clusterBase w.cluster + (va - 0x000FFFFFFF000000)) / 64 :: done) fun p m => h p (List.mem_cons_of_mem _ m)
    simp [readList, place, h1, Got.bind, hw, rangePoisoned, hp, raceCheck, hs, mapFind, hm, memNat_nil, ih]

/-- Channel 15 of cluster 0 starts a copy, lands the last sixteen bytes of one from the core's memory to the cluster's, loads a tile row, ends an entry, and takes one from the system copy port. -/
theorem test_witness_ChannelSteps :
    let w (n : Nat) : EWord := ⟨0, 0, BitVec.ofNat 30 ((15 * 2 ^ 36 + n) / 1024), 0, 0, 0⟩
    let x (n : Nat) : BitVec 56 := BitVec.ofNat 56 n
    let ent (i : Instr) : CopyEnt := ⟨i, 0, 0, 0, true, false, 0, 1, 0, none, 0, Rel.none, 0⟩
    let copy : Instr := .ccopy (w (5 * 1024)) (x coreWin) (x clusterWin)
    let load : Instr := .caccld (w (255 * 2 ^ 23)) (x clusterWin)
    let at_ (i : Instr) (run : Bool) (n : Nat) : State := run0.modCluster 0 fun u => { u with chans := [(15, { Chan.reset with queue := [ent i], running := run, done := n })] }
    let s := at_ copy false 0
    let u := at_ copy true 64
    let v := at_ load true 0
    let f := at_ copy true 80
    let port := open0.modCluster 0 fun u => { u with ent := [(0, 0x000010F000001400), (1, 0xFF0FFFFFFFF80000), (2, 0xFF0FFFFFFF000000)] }
    let ch (s : State) : Chan := (s.cluster 0).chan 15
    ((ch s).queue = ent copy :: [] ∧ (ch s).running = false ∧ (ch s).stop = .run ∧ (ent copy).start ≤ (s.cluster 0).dcy) ∧
      ((ch u).queue = ent copy :: [] ∧ (ch u).running = true ∧ (ch u).next ≤ (u.cluster 0).dcy ∧ (ch u).far ≤ u.now ∧ (ch u).fp = [] ∧ payF (x coreWin) 55 52 = 0 ∧ payF (x clusterWin) 54 54 = 0 ∧ payF (x clusterWin) 55 55 = 0 ∧
        spaceOf (payAddr (x coreWin) + (ch u).done) = some .core ∧ spaceOf (payAddr (x clusterWin) + (ch u).done) = some .cluster ∧ payAddr (x coreWin) % 64 = 0 ∧ payAddr (x clusterWin) % 64 = 0 ∧
        (ch u).done % 64 = 0 ∧ (ch u).done < 16 * argF (w (5 * 1024)) 29 10 ∧ min 64 (16 * argF (w (5 * 1024)) 29 10 - (ch u).done) = 16 ∧
        watermarkStall u (whoChan 0 15 0 0) (coreBase 0 + 64) 16 = false ∧ watermarkStall u (whoChan 0 15 0 0) (clusterBase 0 + 64) 16 = false ∧ rangePoisoned u (coreBase 0 + 64) 16 = false) ∧
      ((ch v).queue = ent load :: [] ∧ (ch v).running = true ∧ (ch v).next ≤ (v.cluster 0).dcy ∧ (ch v).far ≤ v.now ∧ (v.cluster 0).cbanks = [] ∧ (v.cluster 0).mbanks = [] ∧ (ch v).done ≤ argF (w (255 * 2 ^ 23)) 22 15) ∧
      readRange v (whoChan 0 15 0 0) (w (255 * 2 ^ 23)).cls.toNat (payAddr (x clusterWin) + 0 * 1024) 1024 = .ok 0 v ∧
      ((ch f).queue = ent copy :: [] ∧ (ch f).running = true ∧ cKind (ent copy).ins = some (.stream clusterWin 0 80 false false) ∧ 80 ≤ (ch f).done ∧ (ch f).fp = [] ∧ (ch f).landed = 0) ∧
      (windowOpen port.sys = true ∧ (port.cluster 0).cpState ≠ 1 ∧ portEntry (mapGet 0 0 (port.cluster 0).ent) [mapGet 0 1 (port.cluster 0).ent, mapGet 0 2 (port.cluster 0).ent, mapGet 0 3 (port.cluster 0).ent] = .inr copy ∧
        portForm copy = some (w (5 * 1024), okCcopy (w (5 * 1024)) (x coreWin) (x clusterWin), .code) ∧ portCause copy = none ∧ (cKind copy).isSome = true ∧ argF (w (5 * 1024)) 39 36 = 15 ∧
        (ch port).queue.length < 8 ∧ bindBar copy (ch port).bound ≠ none) := by
  intro w x ent copy load at_ s u v f port ch
  refine ⟨?_, ?_, ?_, ?_, ?_, ?_⟩
  case refine_4 =>
    rw [readRange, readList_nil _ rfl rfl rfl (fun _ _ => rfl) _ _ (by decide +kernel)]
    have h : joinNat (((piecesOf (payAddr (x clusterWin) + 0 * 1024) 1024).map fun _ => 0).zip ((piecesOf (payAddr (x clusterWin) + 0 * 1024) 1024).map (·.2))) = 0 := by decide +kernel
    simp only [Got.bind, h]
  all_goals repeat' apply And.intro
  all_goals decide +kernel

/-- Two bound cores and a line held; votes with and without a leaver; a join that times out with a parked core; an idle front end with a parked roster; a fetch that arrives for each kind of party. -/
theorem test_witness_FrontEndSteps :
    let line : PLine := ⟨0, List.replicate 16 0x00400000⟩
    let bind (c : Nat) (p : PrismCore → PrismCore) (s : State) : State := s.modPr c fun x => p { x with bound := true, roster := true }
    let fe (f : FrontEnd → FrontEnd) (s : State) : State := s.modCluster 0 fun u => { u with fe := f { u.fe with idle := false } }
    let v (n : W64) (out : Bool) : PrismCore → PrismCore := fun p => { p with vote := some ⟨n, out, false, false, 0, 0, none, 0⟩ }
    let park (c : Nat) (s : State) : State := (s.modPr c fun x => { x with bound := false, roster := true, parked := true }).modS c fun u => { u with wait := .join 0x40 }
    let s := fe (fun f => { f with line := some line }) (bind 0 (fun p => { p with ibuf := List.replicate 31 ⟨0, 0, 0⟩ }) (bind 7 id run0))
    let voting (s : State) : State := fe (fun f => { f with voting := some 0x40, resolveAt := some 0 }) s
    let a := voting (bind 0 (v 0x44 false) (bind 7 (v 0x80 false) run0))
    let b := voting (bind 0 (v 0x44 true) (bind 7 (v 0x44 false) run0))
    let j := fe (fun f => { f with joining := some (0x40, some 0) }) (park 7 run0)
    let i := park 7 (park 0 run0)
    let fetch (p : Nat) : State := (run0.modCluster 0 fun u => { u with fetches := [⟨p, 5, 6, 0, 0, false⟩], fe := { u.fe with req := some 5 } }).modPr 7 fun x => { x with req := some 5 }
    ((s.cluster 0).fe.idle = false ∧ (s.cluster 0).fe.voting = none ∧ (s.cluster 0).fe.failed = 0 ∧ groupOf s 0 = [0, 7] ∧ (∀ c ∈ groupOf s 0, (s.core c).pr.ibuf.length < 32) ∧
        (s.cluster 0).fe.line = some line ∧ line.line = (s.cluster 0).fe.pc.toNat / 64) ∧
      ((a.cluster 0).fe.joining = none ∧ (a.cluster 0).fe.resolveAt = some 0 ∧ 0 ≤ (a.cluster 0).dcy ∧ (a.cluster 0).fe.voting = some 0x40 ∧ (∀ e ∈ votesOf a 0, e.2.join = false ∧ e.2.leaves = false) ∧ votesOf a 0 ≠ []) ∧
      ((b.cluster 0).fe.joining = none ∧ (b.cluster 0).fe.resolveAt = some 0 ∧ (b.cluster 0).fe.voting = some 0x40 ∧ (∀ e ∈ votesOf b 0, e.2.join = false) ∧ ∃ e ∈ votesOf b 0, e.2.leaves = true) ∧
      ((j.cluster 0).fe.joining = some (0x40, some 0) ∧ 0 ≤ (j.cluster 0).dcy ∧ parkedAt j 0 0x40 = [7] ∧ ∀ c ∈ parkedAt j 0 0x40, (j.core c).pr.bound = false) ∧
      ((i.cluster 0).fe.idle = true ∧ rosterOf i 0 = [0, 7] ∧ groupOf i 0 = []) ∧ (∀ c ∈ rosterOf i 0, ∃ y : W64, (i.core c).su.wait = .join y.toNat) ∧
      (∀ p ∈ [0, 8], (((fetch p).cluster 0).fetches = [⟨p, 5, 6, 0, 0, false⟩] ∧ reqOf (fetch p) 0 p = some 5 ∧ rangePoisoned (fetch p) (6 * 64) 64 = false ∧ watermarkStall (fetch p) (whoFetch (fetch p) 0 p) (6 * 64) 64 = false ∧ mapFind 6 ((fetch p).cluster 0).cache = none)) := by
  intro line bind fe v park s voting a b j i fetch
  have h : rosterOf i 0 = [0, 7] := by decide +kernel
  refine ⟨?_, ?_, ?_, ?_, ?_, ?_, ?_⟩
  case refine_6 =>
    rw [h]
    intro c hc
    exact ⟨0x40, by revert hc; revert c; decide +kernel⟩
  all_goals repeat' apply And.intro
  all_goals decide +kernel

/-- Entry, put, take and shard for the pool statements: pool 63 of context 0, with places for two entries, shard 3. -/
def pent (k : W32) : PEnt := ⟨k, 0, 0, 0, 0, Rel.none⟩
def ptake (id : Nat) : Take := ⟨id, 0, 0, 3, 0, 0, false, false, 0, none, false, 64, 4096⟩
def pooled (f : Shard → Shard) (fl : List (Nat × Flight)) : State :=
  { run0.modPool 63 fun p => { p with owner := some 0, cap := 2, shards := [(3, f Shard.reset)] } with flights := fl, now := 5000 }

theorem test_witness_PoolInserts :
    let put : Flight := .put 63 3 0 (pent 1) 0xFFFF none 0
    let arr : Arr := ⟨pent 1, 9, none⟩
    let s (n : Nat) := pooled (fun x => { x with ents := List.replicate n (pent 2) }) [(7, put)]
    let c := pooled (fun x => { x with arr := [arr] }) [(7, .count 63 3 0 9 true)]
    let m (l : List PEnt) : State := { pooled id [(7, .migrate 63 2 3 (pent 1) 9)] with pools := [(63, { Pool.reset with owner := some 0, shards := [(2, { Shard.reset with ents := l })] })] }
    let r : State := { run0.modS 0 (fun u => { u with wait := .pool 2 31 30 7 }) with flights := [(7, .result 0 0 (some (pent 1)) true 0)] }
    (mapFind 7 (s 1).flights = some put ∧ ((s 1).shard 63 3).stopped = false ∧ hasRoom (s 1) 63 3 = true ∧ hasRoom (s 2) 63 3 = false) ∧
      (mapFind 7 c.flights = some (.count 63 3 0 9 true) ∧ (c.pool 63).round = none ∧ (c.shard 63 3).arr.find? (fun x => x.id = 9) = some arr ∧ arr.from_ = none) ∧
      (mapFind 7 (m [pent 1]).flights = some (.migrate 63 2 3 (pent 1) 9) ∧ ((m [pent 1]).pool 63).round = none ∧ ((m [pent 1]).shard 63 2).ents.any (fun x => x.o = 0 && x.n = 0) = true ∧ ((m []).shard 63 2).ents.any (fun x => x.o = 0 && x.n = 0) = false) ∧
      (run0.pool 63).owner = none ∧ (c.pool 63).owner = some 0 ∧ (mapFind 7 r.flights = some (.result 0 0 (some (pent 1)) true 0) ∧ (r.core 0).su.wait = .pool 2 31 30 7) := by decide +kernel

theorem test_witness_PoolTakes :
    let snap : Snap := ⟨[pent 1], 1⟩
    let s (f : Flight) := pooled id [(7, f)]
    let q := pooled (fun x => { x with ents := [pent 1, pent 2], loc := [ptake 9] }) []
    let old := pooled (fun x => { x with fwd := [{ ptake 9 with at_ := 0 }] }) []
    let round : Round := ⟨4, 4990, 3, 9, [], [], true⟩
    let r := (pooled (fun x => { x with arr := [⟨pent 1, 9, none⟩] }) []).modPool 63 fun p => { p with round := some round }
    ((q.pool 63).owner = some 0) ∧ mapFind 7 (s (.snap 63 2 3 snap none)).flights = some (.snap 63 2 3 snap none) ∧ mapFind 7 (s (.take 63 3 (ptake 9))).flights = some (.take 63 3 (ptake 9)) ∧
      mapFind 7 (s (.peek 63 3 0 9)).flights = some (.peek 63 3 0 9) ∧
      ((q.pool 63).round = none ∧ (q.shard 63 3).refused = none ∧ (q.shard 63 3).decided ≠ q.now + 1 ∧ nextTake q.now (q.shard 63 3) = some (ptake 9) ∧ (q.shard 63 3).ents = pent 1 :: [pent 2] ∧ countBetter q 63 3 (ptake 9).bound (pent 1) < (ptake 9).bound) ∧
      (old.shard 63 3).fwd.any (fun k => !k.promoted && decide (k.limit < old.now - k.at_)) = true ∧ ((r.pool 63).round = some round ∧ round.began + legCy round.shard 3 ≤ r.now ∧ (r.shard 63 3).arr ≠ []) ∧
      mapFind 7 (s (.serve 63 3 (ptake 9) 2)).flights = some (.serve 63 3 (ptake 9) 2) := by
  intro snap s q old round r
  repeat' apply And.intro
  all_goals decide +kernel

/-- A stream of die 3 in a context whose one page of 2^30 bytes maps each address to itself. -/
def stream (loops : List (Nat × Nat)) (named : SMap (Nat × Bool × Nat)) (s : State) : State :=
  ({ s.modCtx 0 fun x => { x with ptroot := 0x100000, live := true } with mem := [(0x100000, 1), (0x100002, 0x11), (0x110000, 0x0F)] } : State).modDie 3 fun d => { d with cp := { d.cp with running := true, loops := loops, named := named } }

/-- Each packet at the head of a stream: counts 0, 1 and 2; loops open and none; the four comparisons; a tag that is free, one in use, and one whose kernel has retired or
whose transfer has landed, or has not; each packet with a bit set that it does not assign; a descriptor of one cluster, and of a transfer of the last bytes. -/
theorem test_witness_PacketEffects :
    let s := stream [] [] run0
    let w (n : Nat) (low : Nat) : W64 := BitVec.ofNat 64 (n * 2 ^ 48 + low)
    let l := stream [(2, 0), (1, 0)] [(5, 9, false, 0)] run0
    let one := withMem 0x20000 2 8 s
    let desc := 0x1000 + 0x2000 * 256 ^ 8 + (3 + 3 * 4) * 256 ^ 16 + 47 * 256 ^ 28 + 7 * 256 ^ 32
    let d := withMem 0x20030 7 1 (withMem 0x2002C 47 1 (withMem 0x20020 15 1 (withMem 0x20019 0x20 1 (withMem 0x20011 0x10 1 (withMem 0x20000 0x101 2 s)))))
    let kern : Kernel := { tag := 1, ctx := 0, die := 0, dies := [0], cfirst := 0, clast := 0, level := 0, eff := 0, since := 0, entry := 0, args := [], rsbase := 0, rsstride := 0, stages := [], prods := [], strs := [], tagTab := 0, issued := true, placeable := none, toTrigger := 8, running := 8, retireAt := none, tagState := 1, uncovered := false, rels := [] }
    let busy : State := { l with sb := [(9, .kernel kern)] }
    let xfer (b : Bool) : Xfer := ⟨5, 0, 0, [3], 39, 39, 0x10000, 0, 64, false, b, false, 0⟩
    let named (kind : Bool) (t : Nat) (e : List (Nat × Entry)) : State := { stream [] [(5, 9, kind, t)] run0 with sb := e }
    let other : State := withMem (l.die 3).cp.tagTab.toNat 0x00010000 4 busy
    (∀ n ∈ [0, 1, 2, 3], atPacket s 3 (w n 0) n) ∧ ((s.die 3).cp.loops = [] ∧ (w 0 1).toNat % 2 ^ 48 ≠ 0 ∧ (w 0 0xFFFFFFFF).toNat % 2 ^ 48 < 2 ^ 32 ∧ (s.die 3).cp.loops.length < 4) ∧
      (cpRead s 3 0x20000 4 = some 0 ∧ cpRead one 3 0x20000 4 = some 2) ∧ ((l.die 3).cp.loops = (2, 0) :: [(1, 0)] ∧ (stream [(1, 0)] [] run0 |>.die 3).cp.loops = (1, 0) :: []) ∧
      (cpRead one 3 0x20000 8 = some 2 ∧ ∀ c, c < 4 → (w 2 (c * 2 ^ 45 + 0xFFFF)).toNat / 2 ^ 45 % 8 = c ∧ (w 2 (c * 2 ^ 45 + 0xFFFF)).toNat % 2 ^ 45 < 2 ^ 16) ∧
      (mapFind 0xFFFF (l.die 3).cp.named = none ∧ (cpRead l 3 ((l.die 3).cp.tagTab.toNat + 2 * 0xFFFF) 2).isSome = true ∧ waitOther l 3 0 (l.die 3).cp.tagTab 0xFFFF = false ∧
        (cpRead other 3 ((other.die 3).cp.tagTab.toNat + 2 * 1) 2).isSome = true ∧ waitOther other 3 0 (other.die 3).cp.tagTab 1 = true ∧ mapFind 5 (busy.die 3).cp.named = some (9, false, 0) ∧ (mapFind 9 busy.sb).isSome = true) ∧
      (mapFind 5 ((named false 0 []).die 3).cp.named = some (9, false, 0) ∧ mapFind 9 (named false 0 []).sb = none ∧ 0 ≤ (named false 0 []).now ∧ (named false 9999 []).now < 9999 ∧
        mapFind 5 ((named true 0 []).die 3).cp.named = some (9, true, 0) ∧ xferLanded (named true 0 []) 9 = true ∧ xferLanded (named true 0 [(9, .xfer (xfer true))]) 9 = true ∧
        xferLanded (named true 0 [(9, .xfer (xfer false))]) 9 = false) ∧
      ((∀ n ∈ [0, 1, 2], (w n 1).toNat % 2 ^ 48 ≠ 0 ∧ atPacket s 3 (w n 1) n) ∧ (2 ^ 32 ≤ (w 0 (2 ^ 32)).toNat % 2 ^ 48 ∧ atPacket s 3 (w 0 (2 ^ 32)) 0) ∧ 2 ^ 16 ≤ (w 2 (2 ^ 16)).toNat % 2 ^ 45 ∧
        (4 ≤ (w 2 (7 * 2 ^ 45)).toNat / 2 ^ 45 % 8 ∧ atPacket s 3 (w 2 (7 * 2 ^ 45)) 2) ∧ (2 ^ 16 ≤ (w 3 (2 ^ 16)).toNat % 2 ^ 48 ∧ atPacket s 3 (w 3 (2 ^ 16)) 3) ∧ (0x800000#64).toNat / 2 ^ 23 % 2 ≠ 0 ∧
        (0x1000000000000#64).toNat / 2 ^ 48 ≠ 0 ∧ (rectOf (2 ^ 28)).zero = false) ∧
      (cpRead d 3 0x20010 128 = some desc ∧ launchable d 3 0x20010 desc (rectOf (descField desc 16 8))) ∧
      (cpRead d 3 0x20000 8 = some 0x101 ∧ launchable d 3 0x20010 desc (launchRect desc (some 0x101)) ∧ launchable d 3 0x20010 desc (launchRect desc (some 0x128))) ∧
      (cpRead (withMem 0x20000 0x100 2 d) 3 0x20000 8 = some 0x100 ∧ cpRead (withMem 0x20000 0x100 2 d) 3 0x20010 128 = some desc ∧ 0x20010 % 16 = 0 ∧ descField desc 0 8 % 4 = 0 ∧ descField desc 8 8 % 8 = 0 ∧
        descField desc 24 4 % 8 = 0 ∧ descField desc 28 1 ≤ 47 ∧ descField desc 29 1 ≤ 4 ∧ descField desc 30 1 ≤ 4 ∧ tagBusy (withMem 0x20000 0x100 2 d) 0 (descField desc 32 2) false = false) ∧
      ((w 3 0xFFFF).toNat % 2 ^ 48 < 2 ^ 16 ∧ (0x17FFFFF#64).toNat / 2 ^ 23 % 2 = 0 ∧ (0x17FFFFF#64).toNat / 2 ^ 48 = 0 ∧ (rectOf 15).zero = true ∧ rectOk s 3 (rectOf 15) = true ∧
        (0x17FFFFF#64).toNat % 2 ^ 23 + (0x17FFFFF#64).toNat / 2 ^ 24 % 2 ^ 24 ≤ 2 ^ 23 ∧ tagBusy s 0 0xFFFF true = false ∧ boardFull s (rectOf 15).dies = false) := by
  unfold atPacket launchable
  intro s w l one desc d kern busy xfer named other
  repeat' apply And.intro
  all_goals decide +kernel

/-- Kernels and transfers of one cluster at each of their steps, and a strand at the end of its intervals. -/
theorem test_witness_ScoreboardSteps :
    let kern : Kernel := { tag := 1, ctx := 0, die := 0, dies := [3], cfirst := 39, clast := 39, level := 47, eff := 47, since := 0, entry := 0x1000, args := [1], rsbase := 0, rsstride := 0, stages := [], prods := [], strs := [], tagTab := 0, issued := false, placeable := none, toTrigger := 8, running := 8, retireAt := none, tagState := 1, uncovered := false, rels := [] }
    let xfer : Xfer := ⟨5, 0, 0, [3], 39, 39, 0x10000, 0, 64, false, false, false, 0⟩
    let on (e : Entry) (n : Nat) : State := { paged run0 with sb := [(9, e)], now := n }
    let k := on (.kernel kern) 65536
    let l := k.modCore 1279 fun c => { c with kern := 9, launched := true }
    let r := on (.kernel { kern with retireAt := some 5 }) 5
    let x := on (.xfer xfer) 0
    let y := on (.xfer { xfer with copying := true }) 0
    let t : State := { run0 with flights := [(7, .tag 0 0)] }
    let wd (n : Nat) : State := run0.modWd 0 fun w => { w with started := true, pos := 65536, noprog := n }
    (kernelOf k 9 = some kern ∧ kern.issued = false ∧ kernelReady k kern = true) ∧ (kernelOf l (l.core 1279).kern = some kern ∧ (l.core 1279).launched = true ∧ kern.args.length ≤ 31) ∧
      (kern.since < k.now ∧ (k.now - kern.since) % 65536 = 0) ∧ (mapFind 9 x.sb = some (.xfer xfer) ∧ xfer.due ≤ x.now ∧ xferHeld x 9 xfer = false) ∧
      (mapFind 9 y.sb = some (.xfer { xfer with copying := true }) ∧ xfer.dies = [3] ∧ xfer.clast = xfer.cfirst ∧ xferSource y { xfer with copying := true } = .inr [(0x20000, 0, 64)]) ∧
      (kernelOf r 9 = some { kern with retireAt := some 5 } ∧ 5 ≤ r.now ∧ copiesLeft r 9 = false) ∧ mapFind 7 t.flights = some (.tag 0 0) ∧ (windowOpen open0.sys = true ∧ (open0.die 0).cp.running = false) ∧ run0.now % 64 = 0 ∧
      (((wd 14).core 0).wd.started = true ∧ intervalOf (wd 14) 0 ≤ ((wd 14).core 0).wd.pos ∧ ((wd 14).core 0).wd.noprog + 1 < ((wd 14).ctxOf 0).limit) ∧
      (((wd 15).ctxOf 0).limit ≠ 0 ∧ ((wd 15).ctxOf 0).limit ≤ ((wd 15).core 0).wd.noprog + 1 ∧ ((wd 15).core 0).wd.prog = false ∧ ((wd 15).core 0).wd.waiting = false) := by
  intro kern xfer on k l r x y t wd
  repeat' apply And.intro
  all_goals decide +kernel

/-- A walk that finds a page and one that does not, a record to be written; one that waits of S, of an engine (after its entry, under way, before it) and of a channel, none of the number; TR.INV idle
and busy; words that are no instruction. -/
theorem test_witness_WalksAndRecords :
    let walk (va : Nat) : Walk := ⟨7, 0, va, (va / 65536 * 65536, 65536), 0, 0, 0, [⟨(0, 0), va, false, false⟩]⟩
    let s (va : Nat) : State := { paged (run0.modS 0 fun u => { u with wait := .walk }) with walks := [walk va] }
    let rec_ : FRec := ⟨5, 0, 0, 0x14, 0, 1, 0, 0, 0, 0, 0, false, 0⟩
    let q := run0.modDie 3 fun d => { d with queue := [rec_], fqBase := 0x1000 }
    let h := (open0.modS 0 fun u => { u with wait := .held 5 }).modDie 3 fun d => { d with waiting := [rec_] }
    let eng (after : Bool) (r : Option Run) : State := ((open0.modCore 0 fun k => { k with run := (r.map fun x => (3, x)).toList }).modEng 0 3 fun g => { g with stop := .held 5 }).modDie 3
      fun d => { d with waiting := [{ rec_ with agent := 3, after := after }] }
    let run : Run := ⟨.wstrm ⟨0, 0, 0, 0, 0, 0⟩ 0 0 0, 0, 0, 0, 0, [], 1, [], []⟩
    let ent : CopyEnt := ⟨.cexp ⟨0, 0, 0, 0, 0, 0⟩ 0, 0, 0, 0, true, false, 0, 1, 0, none, 0, Rel.none, 0⟩
    let chan := (open0.modCluster 0 fun u => { u with chans := [(15, { Chan.reset with queue := [ent], stop := .held 5 })] }).modDie 3 fun d => { d with waiting := [{ rec_ with agent := 31 }] }
    let got (s : State) : Option FRec := (s.die 3).waiting.find? fun r => r.seq = 5
    let busy : State := { open0 with trBusy := some 0 }
    ((s 0x1FFFF).walks.find? (fun w => w.id = 7) = some (walk 0x1FFFF) ∧ walkOf (s 0x1FFFF) 0 0x1FFFF = .leaf ⟨0, 0x10000, 65536, 0x20000, true, true, false⟩ [0, 0, 0, 0] ∧ ((s 0x1FFFF).core 0).su.wait = .walk) ∧
      ((s 0x20000).walks.find? (fun w => w.id = 7) = some (walk 0x20000) ∧ walkOf (s 0x20000) 0 0x20000 = .fail 0x14 3 [0, 0, 0, 0]) ∧
      ((q.die 3).queue = rec_ :: [] ∧ fqFull (q.die 3) = false ∧ ((q.die 3).fqBase.toNat / 4096 * 4096 + 32 * ((q.die 3).tail % fqSize (q.die 3))) % 2 ^ 38 < 192 * 2 ^ 30 ∧ rec_.kind < 2 ∧ 2 ≤ { rec_ with kind := 2 }.kind) ∧
      (windowOpen h.sys = true ∧ got h = some rec_ ∧ rec_.agent = 0 ∧ (h.core rec_.owner).su.wait = .held rec_.seq ∧ 3 < 4) ∧ (windowOpen open0.sys = true ∧ got open0 = none) ∧
      (∀ a ∈ [true, false], ∀ r ∈ [none, some run], windowOpen (eng a r).sys = true ∧ got (eng a r) = some { rec_ with agent := 3, after := a } ∧ ((eng a r).core 0).runOf 3 = r ∧
        (((eng a r).core 0).engine 3).stop = .held rec_.seq) ∧
      (windowOpen chan.sys = true ∧ got chan = some { rec_ with agent := 16 + 15 } ∧ ((chan.cluster 0).chan 15).queue = ent :: [] ∧ ent.port = false) ∧
      open0.trBusy = none ∧ (windowOpen busy.sys = true ∧ busy.trBusy.isSome = true) ∧ (busy.trBusy = some 0 ∧ 0 ≤ busy.now ∧ trReady busy = true ∧ busy.trWait = []) ∧
      majorAssigned (fMajor 0).toNat = false ∧ (majorAssigned (fMajor 0x00400063).toNat = true ∧ decodeScalar 0x00400063 = none) ∧ cWait 0xFF00000000000000 = 0xFF := by
  intro walk s rec_ q h eng run ent chan got busy
  repeat' apply And.intro
  all_goals decide +kernel

theorem test_witness_MemoryErrors :
    159 < 160 ∧ ((run0.modCluster 159 fun u => { u with freeze := 1 }).cluster 159).freeze = 1 ∧ (run0.core 1279).mir.st = .idle ∧ (run0.pool 63).owner = none ∧ run0.sys.part = 0 := by decide +kernel

/-- A core in each state, busy and not, with the window open, and shut; an area of an idle core that holds a strand, and one that holds nothing; an image in nine granules of a page, and one nowhere. -/
theorem test_witness_MirrorCommands :
    let st (m : MirState) (busy : Bool) : State := open0.modMir 0 fun x => { x with st := m, busy := busy, saving := if busy then some 0 else none, area := 0x20000 }
    let area (good : Nat) : State := withMem 0x40000 (0x100 + 0x27000 * 256 ^ 4 + good * 256 ^ 16) 32 (withMem 0x112010 0x4000F 8 (withMem 0x112018 0x5000F 8 (withMem 0x112020 0x6000F 8 (paged (st .idle false)))))
    let err (s : State) : Nat := loadError s 0 0 (mappedPieces s 0 false (pagePieces (s.core 0).mir.area.toNat areaBytes)) (areaReader s (mappedPieces s 0 false (pagePieces (s.core 0).mir.area.toNat areaBytes)))
    let img (m : MirState) : State := (stream [] [] open0).modMir 0 fun x => { x with st := m, img := 0x304000 }
    let at_ (s : State) (w : Bool) : List (Nat × Nat × Nat) := mappedPieces s 0 w (pagePieces (s.core 0).mir.img.toNat imageBytes)
    windowOpen run0.sys = false ∧ (∀ m ∈ [MirState.idle, .running, .frozen, .saved], windowOpen (st m false).sys = true ∧ ((st m false).core 0).mir.busy = false ∧ ((st m false).core 0).mir.st = m ∧ ((st m true).core 0).mir.busy = true ∧ ((st m false).core 0).launched = false) ∧
      (((st .frozen true).core 0).mir.saving.isSome = true ∧ saveReady (st .frozen true) 0 = true) ∧ err (area 1) = 0 ∧ err (area 0) = 3 ∧ at_ (st .saved false) true = [] ∧
      (∀ m ∈ [MirState.idle, .saved], windowOpen (img m).sys = true ∧ ((img m).core 0).mir.st = m ∧ ((img m).core 0).mir.busy = false ∧ ((img m).core 0).launched = false ∧ ((img m).core 0).ctx = 0 ∧
        (img m).poison = []) ∧ ((img .saved).memOk ∧ wholeImage (at_ (img .saved) true)) ∧ ((img .idle).memOk ∧ wholeImage (at_ (img .idle) false)) := by
  unfold State.memOk wholeImage
  intro st area err img at_
  repeat' apply And.intro
  all_goals decide +kernel

/-- Die 3's delivery unit with a ring of four records and one slot of one token. -/
def delivering : State := withMem 0x22000 (1 + 1 * 256 ^ 8) 16 (withMem 0x21000 (4 * 256 ^ 8) 16 (withMem 0x20000 (0x11000 + 0x12000 * 2 ^ 64 + 2 ^ 128 + 8 * 2 ^ 144 + 2 ^ 152 + 7 * 2 ^ 160) 32
  ((paged run0).modDie 3 fun d => { d with dlv := 0x10001, tlb := [⟨0, 0x10000, 65536, 0x20000, true, true, false⟩] })))
/-- The same with the slot's trap requested of core 0. -/
def asked : State := withMem 0x22000 (1 + 1 * 256 ^ 8 + 4 * 256 ^ 8) 16 delivering

/-- A delivery of one token of one slot, a repetition's trap between two instructions, with a handler and without, the window open and shut, a port that is free, one that has ended its copy, one that is
disabled, a page of a function's BAR2, a join counter of two and one whose continuation has no room. -/
theorem test_witness_DeliveryAndPorts :
    let desc : DlvDesc := ⟨0x11000, 0x12000, 1, 8, true, 7⟩
    let slot := 1 + 1 * 256 ^ 8
    let s := delivering
    let t := asked
    let x : PortCopy := ⟨0, 0, 64, 9, 0⟩
    let p : State := { run0 with ports := [(23, x)] }
    let f : State := { run0 with sys := { run0.sys with part := 2 }, bar2 := [(3 * 2 ^ 20 + 0xFFF0, 0xC00001)] }
    let clus := clusterBase 159 + 0x7FFFF0
    let j := (withMem clus 1 4 run0).modCluster 159 fun u => { u with task := { u.task with conts := List.replicate 16 (0, 0, []) } }
    (dlvEnabled s 3 = true ∧ (s.die 3).dlvHeld = false ∧ dlvWalk s 3 (pageVas ((s.die 3).dlv.toNat / 16 * 16) 32) = none ∧ dlvDesc s 3 = .inr desc ∧ nextSlot s 3 desc = some 0 ∧ dlvWalk s 3 (turnVas s 3 desc 0) = none ∧ dlvRead s 3 desc.ring 16 = .inr (4 * 256 ^ 8) ∧
        dlvRead s 3 (desc.slots + 128 * 0) 16 = .inr slot ∧ dlvRead s 3 (desc.slots + 128 * 0 + 16 + 8 * (slot / 2 ^ 32 % 2 ^ 32 % 8)) 8 = .inr 0 ∧
        (4 * 256 ^ 8) / 2 ^ 64 % 2 ^ 32 = 4) ∧
      ((0x11010, 0x21010) :: (0x11018, 0x21010 + 8) :: (0x11000, 0x21000) :: (0x12000, 0x22000) :: (0x12004, 0x22000 + 4) :: [(0x12008, 0x22000 + 8)]).all (fun p => spaceOf p.1 = some .device &&
        ((tlbFind (dlvCtx s 3) p.1 (unitTable s (160 + 3))).any fun e => e.w && decide (p.2 = e.pa + (p.1 - e.va)))) = true ∧
      (0x21000 + 4 ≤ 0x21010 ∧ 0x21010 + 16 ≤ 0x22000 + 4) ∧
      (repRequest t 0 = some (3, 0, desc) ∧ (t.core 0).mir.st = .running ∧ betweenInstrs (t.core 0).su = true) ∧
      ((t.ctxOf 0).tven = false ∧ let h := t.modCtx 0 fun x => { x with tven := true }; repRequest h 0 = some (3, 0, desc) ∧ (h.ctxOf 0).tven = true ∧ (h.core 0).su.inh = false) ∧
      (windowOpen open0.sys = true ∧ windowOpen run0.sys = false ∧ (∀ c ∈ open0.ctxs, c.2.live = false) ∧ let l := open0.modCtx 7 fun x => { x with live := true }; windowOpen l.sys = true ∧ ∃ c ∈ l.ctxs, c.2.live = true) ∧
      (mapFind 23 run0.ports = none ∧ 23 < 24 ∧ 23 ∉ run0.sys.portsOff ∧ 2 ^ 40 - 64 + 64 ≤ 2 ^ 40 ∧ (∀ a ∈ [2 ^ 40 - 64, 2 ^ 40 - 64 + 64 - 1], partOf run0 (a / 2 ^ 38 % 4) = partOf run0 (23 / 6))) ∧ (mapFind 23 p.ports = some x ∧ x.due ≤ p.now) ∧
      (functions run0 ≤ 1 ∧ 3 < functions f ∧ mapFind (3 * 2 ^ 20 + 0xFFF0FFFF / 65536) f.bar2 = some 0xC00001 ∧ 0xC00001 < 2 ^ 24 ∧ 0xFFF0FFFF % 65536 + 1 ≤ 65536 ∧ partOf f ((0xC00001 * 65536 + 0xFFFF) / 2 ^ 38) = 3 ∧
        isPoisoned f (0xC00001 * 65536 + 0xFFFF) = false) ∧
      ((∃ j ∈ [23], portOf (3 * 2 ^ 14 + 25) = some j) ∧ ∀ j ∈ run0.sys.portsOff, portOf (3 * 2 ^ 14 + 25) ≠ some j) ∧
      1 < memNat (withMem 0x20000 2 4 run0).mem 0x20000 4 ∧ (memNat j.mem clus 4 = 1 ∧ 16 ≤ (j.cluster ((clus - 2 ^ 40) / 2 ^ 23)).task.conts.length) := by
  intro desc slot s t x p f clus j
  repeat' apply And.intro
  all_goals decide +kernel

/-- Each boot stage, in the trial boot of an update and not, past its limit and not; READY's bit; an update before a slot is booted and after, beside either slot (whether an image is
good rests on the digest and the signature, which no test knows; its header is one); a sensor's sample after a millisecond, with eight hot ones before. -/
theorem test_witness_BootAndManagement :
    let y (f : Sys → Sys) : State := { State.reset with sys := f { Sys.reset with power := true } }
    let s := { (y fun x => { x with powerAt := 5 }).modDie 3 (fun d => { d with hot := [(15, 8)] }) with now := 1750004 }
    let head : BitVec 128 := 0x100000000147524942
    State.reset.sys.power = false ∧ (∀ b ∈ [true, false], (y fun x => { x with trying := b }).sys.trying = b) ∧ bootSlot known = none ∧ (∀ n ∈ [1, 2, 3, 4], (y fun x => { x with stage := n }).sys.stage = n) ∧
      (∀ n ∈ [1, 2, 3, 4], let s : State := { (y fun x => { x with stage := n }) with now := stagePulses n + 1 }; 1 ≤ s.sys.stage ∧ s.sys.stage ≤ 4 ∧ s.sys.began + stagePulses s.sys.stage < s.now) ∧
      ((y fun x => { x with stage := 4 }).sys.stage = 4 ∧ (1#64).getLsbD 0 = true ∧ (0#64).getLsbD 0 = false) ∧ State.reset.sys.slot ≤ 1 ∧ (y fun x => { x with slot := 1 }).sys.slot ≤ 1 ∧
      ((y fun x => { x with stage := 7, reason := 1 }).sys.stage = 7 ∧ (y fun x => { x with stage := 7, reason := 1 }).sys.reason = 1 ∧ 2 ≤ (y fun x => { x with stage := 7, reason := 2 }).sys.stage ∧
        (y fun x => { x with stage := 7, reason := 2 }).sys.reason ≠ 1) ∧
      (head.toNat % 2 ^ 32 = 0x47524942 ∧ (y id).sys.minver ≤ head.toNat / 2 ^ 32 % 2 ^ 32 ∧ head.toNat / 2 ^ 64 % 2 ^ 32 ≤ 2 ^ 28 ∧ head.toNat / 2 ^ 96 = 0) ∧
      (sampleDue s = true ∧ sampled s 3 15 = false ∧ 15 ∈ sensorsOf 3 ∧ mapGet 0 15 (s.die 3).hot < 9) := by
  intro y s head
  repeat' apply And.intro
  all_goals decide +kernel

theorem test_witness_ContextsAndWindow :
    let y (n : Nat) : State := { State.reset with sys := { Sys.reset with stage := n, ready := true } }
    ((y 5).sys.ready = true ∧ ((y 5).ctx 4095).live = false ∧ 4095 < 4096) ∧ (y 3).sys.stage < 4 ∧ ((y 4).sys.stage = 4 ∧ 1 % 8 ≠ 0) ∧ (y 5).sys.stage = 5 ∧ (48#64).toNat % 64 ≤ 48 ∧ accAssigned (y 5) (accView (2 ^ 29 + 0x2000058)) (accOffset (2 ^ 29 + 0x2000058)) = true ∧
      ((y 5).core 1279).ctx = 0 ∧ ((y 5).core 1279).mir.st = .idle := by decide +kernel

/-- The turns of S on a detached core and on a bound one, of V with a word at its head, of a unit's step, and no turn. -/
theorem test_witness_StepRunsDecoded :
    let s := State.reset.withFetchWord 32 0x00400000
    let n := State.reset.withFetchWord 32 0
    let b := (State.reset.withFetchWord 32 0).modPr 0 fun p => { p with bound := true, ibuf := [⟨0, 0x00400000, 0⟩] }
    let v := State.reset.withFetchWord 64 0x0000020000000000
    let w := ringWord v 0 4 (headSkip (v.core 0) 4)
    let d : DlvDesc := ⟨0x11000, 0x12000, 1, 8, true, 7⟩
    let q : State := { asked with agenda := [.unit 0 0] }
    (q.agenda = .unit 0 0 :: [] ∧ scalarTries q.now (q.core 0) = true ∧ repRequest { q with agenda := [] } 0 = some (3, 0, d) ∧ betweenInstrs (q.core 0).su = true) ∧
    (s.agenda = .unit 0 0 :: [] ∧ scalarTries s.now (s.core 0) = true ∧ repRequest { s with agenda := [] } 0 = none ∧ repRequest { b with agenda := [] } 0 = none ∧ (s.core 0).pr.bound = false ∧ (s.core 0).pr.failed = 0 ∧ decodeScalar 0x00400000 = some (.add 0 0 0 0) ∧ (decodeFails s 0 0x00400000 = true ∨ usesReady s.now (s.core 0) 0x00400000 = true)) ∧
      ((s.core 0).pr.pbuf.find? fun l => l.line = (s.core 0).su.pc.toNat / 64) = some ⟨0, 0x00400000 :: List.replicate 15 0⟩ ∧ (n.agenda = .unit 0 0 :: [] ∧ scalarTries n.now (n.core 0) = true ∧ decodeScalar 0 = none) ∧
      ((b.core 0).pr.bound = true ∧ (b.core 0).pr.ibuf = ⟨0, 0x00400000, 0⟩ :: []) ∧
      (v.agenda = .unit 0 4 :: [] ∧ engineTries (v.core 0) 4 = true ∧ wordsAt v 0 4 (headSkip (v.core 0) 4) 1 = true ∧ wordsAt v 0 4 (headSkip (v.core 0) 4) (entryNeeds 4 w) = true ∧ ringStall v 0 4 (headSkip (v.core 0) 4) (entryNeeds 4 w) = none ∧ entryCause v 0 4 w = none) ∧
      decodeEntry (engineMap 4) w ((List.range (wordExts 4 w)).map fun j => ringWord v 0 4 (headSkip (v.core 0) 4 + j + 1)) = some (.vEnop ⟨0, 0, 0, 0, 0, 0, 0, 0, 0, 0⟩) ∧
      (∃ t, exec .eventLogTick { State.reset with agenda := [] } = .next t) ∧ exec (.parkWake 0) { State.reset with agenda := [] } = .refused .notEnabled ∧ State.reset.agenda = [] := by
  intro s n b v w d q
  repeat' apply And.intro
  all_goals first | decide +kernel | rfl | exact ⟨_, rfl⟩

/-- Instructions of S, of V with operands at the ends of their ranges, of an engine with extension words, and a step without a word. -/
theorem test_witness_EncodeDecodeRoundTrip : ∀ i ∈ ([.add 7 31 31 31, .br 0 0x200000, .join 7 7 0x1FFF, .vfmaF32 ⟨0xEF, 0xEF, 111, 111, 71, 0, 7, 0, 5, 0⟩, .vtopk ⟨0, 0, 62, 0, 0, 64, 0, 0, 0, 0⟩,
    .rcinitE ⟨0, 0, 0, 0, 0, 7, 0, 0, 0, 1⟩, .mmul ⟨0, 0, 0, 15, 5, 0⟩ 0xFFFFFFFFFFFF00, .cexp ⟨0, 0, 0, 0, 0, 0⟩ 0xFFFFFFFFFFFFF, .leaseGrant 159] : List Instr), i.wf = true := by decide +kernel

theorem test_witness_MemoryStaysCanonical : State.reset.memOk ∧ ∃ t, step (State.reset.withFetchWord 32 0x00400000) = .next t := by
  exact ⟨by unfold State.memOk; decide +kernel, _, rfl⟩

/-! ### Single steps, with results worked out from the rules by hand -/

/-- The state after an instruction that answers one. -/
def after (i : Instr) (s : State) : State := match exec i s with | .next t => t | _ => s

/-- R176: wrapping, division by zero, the one overflow, shift amounts modulo 64, the high halves. -/
theorem test_integer :
    let s := withX [(1, 0xFFFFFFFFFFFFFFFF), (2, 1), (3, 0x8000000000000000), (4, 64), (5, 7)] run0
    (after (.add 0 6 1 2) s).x 6 = 0 ∧ (after (.sub 0 1 2 1) s).x 1 = 2 ∧ (after (.div 0 6 5 0) s).x 6 = 0xFFFFFFFFFFFFFFFF ∧ (after (.rem 0 6 5 0) s).x 6 = 7 ∧
      (after (.div 0 6 3 1) s).x 6 = 0x8000000000000000 ∧ (after (.rem 0 6 3 1) s).x 6 = 0 ∧ (after (.sra 0 6 3 4) s).x 6 = 0x8000000000000000 ∧ (after (.mulh 0 6 1 1) s).x 6 = 0 ∧
      (after (.mulhn 0 6 1 1) s).x 6 = 0xFFFFFFFFFFFFFFFE ∧ (after (.clz 0 6 0) s).x 6 = 64 ∧ (after (.ctz 0 6 3) s).x 6 = 63 ∧ (after (.clmul 0 6 5 5) s).x 6 = 21 ∧
      (after (.sh4add 0 6 5 2) s).x 6 = 113 ∧ (after (.add 0 0 1 5) s).x 0 = 0 := by
  repeat' apply And.intro
  all_goals decide +kernel

/-- R157: addi and cmpi extend the sign, andi zeros; lsi shifts by 17. -/
theorem test_immediates :
    let s := withX [(1, 5), (2, 0xFFFFFFFFFFFFFFFF)] run0
    (after (.addi 0 3 1 0xFFF) s).x 3 = 4 ∧ (after (.andi 0 3 2 0xFFF) s).x 3 = 0xFFF ∧ (after (.cmpiLtn 0 3 1 0xFFF) s).pred 3 = true ∧ (after (.cmpiLt 0 3 1 0xFFF) s).pred 3 = false ∧
      (after (.li 0 3 0x1FFFF) s).x 3 = 0xFFFFFFFFFFFFFFFF ∧ (after (.lsi 0 1 3) s).x 1 = 0xA0003 := by
  repeat' apply And.intro
  all_goals decide +kernel

/-- R179, R180, R322: a backward branch, a call and its return address, a return without one, a software trap with a handler and without. -/
theorem test_control :
    let s := (run0.modCtx 0 fun x => { x with tven := true, tvec := 0x400 }).modS 0 fun u => { u with pc := 0x100 }
    (after (.br 0 0x3FFFFF) s).me.su.pc = 0xFC ∧ (after (.call 0 4) s).me.su.pc = 0x110 ∧ (after (.call 0 4) s).me.su.ras = [0x104] ∧
      ((after (.ret 0) s).me.su.pc = 0x400 ∧ (after (.ret 0) s).me.su.cause = 0x05 ∧ (after (.ret 0) s).me.su.epc = 0x100) ∧
      (after (.swtrap 0 0xFFFF) s).me.su.cause = 0x0000FFFF0000000C ∧ (after (.swtrap 0 1) run0).me.su.wait = .reporting ∧ (after (.eret 0) s).me.su.cause = 0x0B := by
  repeat' apply And.intro
  all_goals decide +kernel

/-- R183 to R185, R76: bytes in little-endian order, signs, a full granule, a signed minimum, a compare that fails. -/
theorem test_memory :
    let s := withX [(1, BitVec.ofNat 64 coreWin), (2, 0xFFFFFFFF80818283), (3, 9)] (withMem (coreBase 0) 0xFE 4 run0)
    (after (.ldI8 0 4 1 0 0) s).x 4 = 0xFFFFFFFFFFFFFFFE ∧ (after (.ldN16 0 4 1 0 0) s).x 4 = 0xFE ∧ memByte (after (.stN32 0 2 1 0 1) s).mem (coreBase 0 + 4) = 0x83 ∧
      memByte (after (.stN32 0 2 1 0 1) s).mem (coreBase 0 + 8) = 0 ∧ fullAt (after (.stN8Set 0 2 1 0 16) s) (coreBase 0 + 31) = true ∧ fullAt (after (.stN8Set 0 2 1 0 16) s) (coreBase 0 + 15) = false ∧
      memNat (after (.aminI32 0 4 1 2 0) s).mem (coreBase 0) 4 = 0x80818283 ∧ (after (.aminI32 0 4 1 2 0) s).x 4 = 0xFE ∧ memNat (after (.acasN32 0 3 1 2 0) s).mem (coreBase 0) 4 = 0xFE ∧
      (after (.ldN64W 0 4 1 0 1) s).me.su.wait = .stalled ∧ (after (.ldN32 0 4 3 0 0) s).me.su.wait ≠ .idle := by
  repeat' apply And.intro
  all_goals decide +kernel

/-- R216, R226, R65: one f32 sum of each rounding, and a saturated integer sum, as they land. -/
theorem test_vector :
    let s (r : BitVec 3) := (vrun.modV 0 fun v => { v with v := [(2, List.replicate 64 0x3F800000), (3, List.replicate 64 0x33800000)] }, (⟨0, 0, 1, 2, 3, 0, 0, 0, r, 0⟩ : VWord))
    let out (x : State × VWord) (i : VWord → Instr) : List Target := ((after (i x.2) x.1).me.v.landings.map (·.targets)).flatten
    out (s 1) .vaddF32 = [.vreg 1 (List.replicate 64 0x3F800000) 0xFFFFFFFFFFFFFFFF] ∧ out (s 4) .vaddF32 = [.vreg 1 (List.replicate 64 0x3F800001) 0xFFFFFFFFFFFFFFFF] ∧
      out (s 0) .vaddsI32 = [.vreg 1 (List.replicate 64 0x73000000) 0xFFFFFFFFFFFFFFFF] := by
  repeat' apply And.intro
  all_goals decide +kernel

/-- FIPS 202's example of SHAKE256: no message; its first bytes, and those of the second block of output. -/
theorem test_shake256 : shake256 [] 4 = [0x46, 0xB9, 0xDD, 0x2B] ∧ (shake256 [] 140).drop 136 = [0x94, 0x3B, 0x6A, 0xEC] := by decide +kernel

end Sys2Proof.Tests
end

section
/-! Creating a context, and accesses through the control-register window (R63, R82, R321, R383, R386). -/
namespace Sys2Proof.Machine

/-! ### A map whose values are changed in place -/

theorem mapFind_map {α β : Type} (f : α → β) (k : Nat) (m : SMap α) : mapFind k (m.map fun e => (e.1, f e.2)) = (mapFind k m).map f := by
  induction m with
  | nil => rfl
  | cons e r ih =>
    simp only [List.map_cons, mapFind, ih]
    split <;> rfl

/-- A change that leaves the default alone goes through a read of the map. -/
theorem mapGet_map {α : Type} (d : α) (f : α → α) (hd : f d = d) (k : Nat) (m : SMap α) : mapGet d k (m.map fun e => (e.1, f e.2)) = f (mapGet d k m) := by
  simp only [mapGet, mapFind_map]
  cases mapFind k m with
  | none => exact hd.symm
  | some v => rfl

/-! ### Creating a context (R63, R82) -/

/-- A core as the creation of a context leaves it: where no strand has it and its registers are that context's, they are at their reset values (log entry 27). -/
def Core.afterCreate (x : Nat) (k : Core) : Core := if k.ctx = x && k.mir.st = .idle then k.withContext CtxCore.reset else k

@[simp] theorem afterCreate_su (x : Nat) (k : Core) : (k.afterCreate x).su = k.su := by unfold Core.afterCreate; split <;> rfl

theorem afterCreate_reset (x : Nat) : Core.reset.afterCreate x = Core.reset := by unfold Core.afterCreate; split <;> rfl

theorem afterCreate_own (x : Nat) (k : Core) (hx : k.ctx = x) (hi : k.mir.st = .idle) : k.afterCreate x = k.withContext CtxCore.reset := by
  simp [Core.afterCreate, hx, hi]

/-- The state after the creation of a context. -/
def contextCreated (s : State) (x : Nat) : State :=
  { s.setCtx x { Ctx.reset with live := true, die := (s.ctx x).die } with
      cores := s.cores.map fun e => (e.1, e.2.afterCreate x), acc := [], accPoison := [] }

theorem exec_contextCreate (s : State) (x : Nat) (hready : s.sys.ready = true) (hfree : (s.ctx x).live = false) (hx : x < 4096) :
    exec (.contextCreate x) s = .next (contextCreated s x) := by
  show execContextCreate x s = _
  unfold execContextCreate
  rw [if_neg (by simp [hready, hfree, hx])]
  rfl

theorem contextCreated_ctx_self (s : State) (x : Nat) : (contextCreated s x).ctx x = { Ctx.reset with live := true, die := (s.ctx x).die } :=
  setCtx_ctx_self s x _

theorem contextCreated_core (s : State) (x c : Nat) : (contextCreated s x).core c = (s.core c).afterCreate x :=
  mapGet_map Core.reset (Core.afterCreate x) (afterCreate_reset x) c s.cores

theorem contextCreated_mem (s : State) (x : Nat) : (contextCreated s x).mem = s.mem := rfl

theorem contextCreated_accAt (s : State) (x key : Nat) : accAt (contextCreated s x) key = 0 := rfl

/-! ### When the window answers (R383), and what it does with an access (R386) -/

theorem windowOpen_of_lt (y : Sys) (h : y.stage < 4) : windowOpen y = false := by
  simp [windowOpen, show y.stage ≠ 4 by omega, show y.stage ≠ 5 by omega, show y.stage ≠ 7 by omega]

theorem windowOpen_of_eq (y : Sys) (h : y.stage = 4 ∨ y.stage = 5) : windowOpen y = true := by
  rcases h with h | h <;> simp [windowOpen, h]

theorem exec_window_shut (s : State) (x : Nat) (w : W64) (hshut : windowOpen s.sys = false) : exec (.windowRegisterWrite x w) s = .next s := by
  show execWindowRegisterWrite x w s = _
  simp [execWindowRegisterWrite, hshut]

section
variable (s : State) (w : W64) (hopen : windowOpen s.sys = true)
include hopen

/-- An access that is misaligned or of another size is only logged. -/
theorem exec_window_illFormed (x : Nat) (h : x % 8 ≠ 0 ∨ 2 ^ 30 ≤ x) : exec (.windowRegisterWrite x w) s = .next (windowError s) := by
  have hbad : 2 ≤ accKind x ∨ accOffset x % 8 ≠ 0 := by simp only [accKind, accOffset]; omega
  show execWindowRegisterWrite x w s = _
  rcases hbad with hbad | hbad <;> simp [execWindowRegisterWrite, hopen, hbad]

theorem exec_window_read (x : Nat) (hlo : 2 ^ 29 ≤ x) (hhi : x < 2 ^ 30) (h8 : x % 8 = 0) (hreg : accAssigned s (accView x) (accOffset x) = true) :
    exec (.windowRegisterWrite x w) s = .next s := by
  have hkind : accKind x = 1 := by simp only [accKind]; omega
  have hoff : accOffset x % 8 = 0 := by simp only [accOffset]; omega
  show execWindowRegisterWrite x w s = _
  simp [execWindowRegisterWrite, hopen, hkind, hoff, hreg]

/-- An aligned write of 8 bytes to a register that the view finds. -/
theorem exec_window_write (x v off : Nat) (hx : x = v * 2 ^ 26 + off) (hv : v < 8) (hoff : off < 2 ^ 26) (h8 : off % 8 = 0) (hreg : accAssigned s v off = true) :
    exec (.windowRegisterWrite x w) s = windowWrite s v off w := by
  have hkind : accKind x = 0 := by simp only [accKind]; omega
  have hview : accView x = v := by simp only [accView]; omega
  have hoffset : accOffset x = off := by simp only [accOffset]; omega
  show execWindowRegisterWrite x w s = _
  simp [execWindowRegisterWrite, hopen, hkind, hview, hoffset, h8, hreg]

/-! ### The regions of contexts and dies -/

/-- PT.ROOT of a context, written from BAR0 of the package. -/
theorem exec_window_ptroot (x k : Nat) (hx : x = 0x1000000 + 4096 * k + 8 * 0x100) (hk : k < 4096) :
    exec (.windowRegisterWrite x w) s = .next (s.modCtx k fun c => { c with ptroot := w &&& 0x000000FFFFFF0000 }) := by
  have hn : accNumber x = 0x100 := by simp only [accNumber]; omega
  have hctx : (x - 0x1000000) / 4096 = k := by omega
  have hreg : accAssigned s 0 x = true := by
    unfold accAssigned
    rw [if_neg (by omega), if_neg (by omega), if_neg (by omega), if_pos (by omega), hn]
    rfl
  rw [exec_window_write s w hopen x 0 x (by rw [Nat.zero_mul, Nat.zero_add]) (by omega) (by omega) (by omega) hreg, windowWrite,
    if_neg (by omega), if_neg (by omega), if_neg (by omega), if_pos (by omega), hn, hctx]
  rfl

/-- The command processor's context and the swallow counts of a die, written from BAR0 of the package or by management. -/
theorem exec_window_die (x v d off : Nat) (hx : x = v * 2 ^ 26 + (0x2000000 + 2 ^ 20 * d + off)) (hv : v = 0 ∨ v = 5) (hd : d < 4)
    (hoff : off = 0x058 ∨ (0x100 ≤ off ∧ off < 0x240 ∧ off % 8 = 0)) : exec (.windowRegisterWrite x w) s = .next (windowDie s v d off w) := by
  obtain ⟨o, ho⟩ : ∃ o, o = 0x2000000 + 2 ^ 20 * d + off := ⟨_, rfl⟩
  have hreg : o % 2 ^ 20 = off := by omega
  have hdie : (o - 0x2000000) / 2 ^ 20 = d := by omega
  have hview : viewHas s v d = true := by rcases hv with rfl | rfl <;> rfl
  have hassigned : accAssigned s v o = true := by
    unfold accAssigned
    rw [if_neg (by omega), if_neg (by omega), if_neg (by omega), if_neg (by omega), if_pos (by omega), hreg, hdie, hview]
    rcases hoff with rfl | ⟨hlo, hhi, -⟩
    · rfl
    · simp [hlo, hhi]
  rw [exec_window_write s w hopen x v o (by rw [hx, ho]) (by omega) (by omega) (by omega) hassigned, windowWrite,
    if_neg (by omega), if_neg (by omega), if_neg (by omega), if_neg (by omega), if_pos (by omega), hreg, hdie]

end

theorem setCpCtx_cpCtx (s : State) (d : Nat) (w : W64) : ((setCpCtx s d w).die d).cp.ctx = w.toNat % 65536 := by
  simp only [setCpCtx, State.modCp, modCtx_die, modDie_die_self]

theorem setCpCtx_mem (s : State) (d : Nat) (w : W64) : (setCpCtx s d w).mem = s.mem := rfl

/-- A swallow count is management's to write (R386): from another view the write has no effect. -/
theorem windowDie_swallow (s : State) (v d k : Nat) (w : W64) (hk : k < 40) (hw : w.toNat % 64 ≤ 48) :
    windowDie s v d (0x100 + 8 * k) w = if v = 5 then s.modCluster (d * 40 + k) fun u => { u with swallowNext := w.toNat % 64 } else s := by
  unfold windowDie
  split
  case h_11 =>
    rw [show (0x100 + 8 * k - 0x100) / 8 = k by omega, if_neg (show ¬ 48 < w.toNat % 64 by omega)]
    simp only [show 0x100 ≤ 0x100 + 8 * k ∧ 0x100 + 8 * k < 0x240 by omega, true_and]
  all_goals omega

end Sys2Proof.Machine

namespace Sys2Proof.Claims
open Sys2Proof Sys2Proof.Machine

/-- Settles O55: the state after a creation read part by part, and each access of the window by its kind, its view and the region it falls in. -/
theorem contextsAndWindow : Obligations.ContextsAndWindow := by
  intro s x w
  refine ⟨fun hready hfree hx => ⟨_, exec_contextCreate s x hready hfree hx, ?_⟩,
    fun hst => ⟨s, exec_window_shut s x w (windowOpen_of_lt _ hst), rfl⟩, fun hst => ?_⟩
  · dsimp only
    rw [contextCreated_ctx_self]
    refine ⟨rfl, rfl, rfl, rfl, rfl, rfl, rfl, rfl, rfl, rfl, rfl, rfl, rfl, rfl, fun _ => by rw [contextCreated_mem], contextCreated_accAt s x, fun c => ?_⟩
    rw [contextCreated_core]
    refine ⟨afterCreate_su x _, fun hctx hidle => ?_⟩
    rw [afterCreate_own x _ hctx hidle]
    exact ⟨rfl, rfl, rfl, rfl⟩
  have hopen := windowOpen_of_eq _ hst
  refine ⟨fun hbad => ⟨_, exec_window_illFormed s w hopen x hbad, rfl, _, rfl⟩,
    fun hlo hhi h8 hreg => ⟨s, exec_window_read s w hopen x hlo hhi h8 hreg, rfl⟩, ?_, ?_, ?_⟩
  · intro d hd hx
    have h : exec (.windowRegisterWrite x w) s = .next (setCpCtx s d w) := exec_window_die s w hopen x 0 d 0x058 (by rw [hx, Nat.zero_mul, Nat.zero_add]) (.inl rfl) hd (.inl rfl)
    exact ⟨_, h, setCpCtx_cpCtx s d w, fun _ => by rw [setCpCtx_mem]⟩
  · intro d k hd hk hw
    have h (v : Nat) (hv : v = 0 ∨ v = 5) (hx : x = v * 2 ^ 26 + (0x2000000 + 2 ^ 20 * d + (0x100 + 8 * k))) : exec (.windowRegisterWrite x w) s =
        .next (if v = 5 then s.modCluster (d * 40 + k) fun u => { u with swallowNext := w.toNat % 64 } else s) := by
      rw [exec_window_die s w hopen x v d _ hx hv hd (.inr (by omega)), windowDie_swallow s v d k w hk hw]
    constructor
    · intro hx
      refine ⟨_, h 5 (.inr rfl) (by rw [hx]; simp only [Nat.add_assoc]), ?_⟩
      rw [if_pos rfl]
      simp only [modCluster_cluster_self, and_self]
    · intro hx
      exact ⟨s, h 0 (.inl rfl) (by rw [hx, Nat.zero_mul, Nat.zero_add]; simp only [Nat.add_assoc]), rfl⟩
  · intro k hk hx
    exact ⟨_, exec_window_ptroot s w hopen x k hx hk, by simp only [modCtx_ctx_self]⟩

end Sys2Proof.Claims
end
